-- ==== Sys2Proof/Word.lean ====
section
/-! DEFINITION. The widths of the block's values (spec 00_scope R6, R8). All values are unsigned. -/

namespace Sys2Proof

/-- A memory byte, a V register, a timer: 8 bits (R6). -/
abbrev Byte := BitVec 8

/-- An instruction word, I, PC, a return address: 16 bits (R6). -/
abbrev Word := BitVec 16

/-- The 12-bit address field NNN of an instruction (30_encoding R72). -/
abbrev Addr := BitVec 12

/-- A register selector X or Y: every value 0 to 15 is legal (10_state R21). -/
abbrev Reg := Fin 16

/-- A logical key index 0x0 to 0xF (10_state R30). -/
abbrev Key := Fin 16

/-- VF, general register 15 (10_state R23). -/
abbrev Reg.vf : Reg := 15

/-- V0, read implicitly by BNNN (10_state R21). -/
abbrev Reg.v0 : Reg := 0

end Sys2Proof
end

