-- ==== Sys2Proof/Decode.lean ====
section
/-! DEFINITION. The decoder of 30_encoding R77, and the encoder, written apart from it from the patterns of 30_encoding R75. The
decoder slices bits; the encoder adds up the digits of the pattern. -/

namespace Sys2Proof

/-- Why a word is no instruction. -/
inductive DecodeError where
  /-- 30_encoding R78: no row of R75 matches the word. -/
  | illegalInstruction (w : Word)
deriving DecidableEq, Repr

/-- `concat(hi, lo)` (00_scope R8): the byte at the lower address is bits 15 to 8 (20_memory R55). -/
def concat (hi lo : Byte) : Word := hi ++ lo

/-- The byte of a word at the lower address (20_memory R55). -/
def highByte (w : Word) : Byte := w.extractLsb' 8 8

/-- The byte of a word at the higher address (20_memory R55). -/
def lowByte (w : Word) : Byte := w.extractLsb' 0 8

/-- `F = w[15:12]`, the family (30_encoding R72). -/
def fieldF (w : Word) : BitVec 4 := w.extractLsb' 12 4

/-- `X = w[11:8]` (30_encoding R72). -/
def fieldX (w : Word) : Reg := (w.extractLsb' 8 4).toFin

/-- `Y = w[7:4]` (30_encoding R72). -/
def fieldY (w : Word) : Reg := (w.extractLsb' 4 4).toFin

/-- `N = w[3:0]` (30_encoding R72). -/
def fieldN (w : Word) : BitVec 4 := w.extractLsb' 0 4

/-- `NN = w[7:0]` (30_encoding R72). -/
def fieldNN (w : Word) : Byte := w.extractLsb' 0 8

/-- `NNN = w[11:0]` (30_encoding R72). -/
def fieldNNN (w : Word) : Addr := w.extractLsb' 0 12

/-- Family 0 of 30_encoding R77: 00E0 and 00EE win over 0NNN (R76). -/
def decode0 (w : Word) : Instr :=
  if w = 0x00E0#16 then .cls
  else if w = 0x00EE#16 then .ret
  else .sys (fieldNNN w)

/-- Family 8 of 30_encoding R77. -/
def decode8 (w : Word) : Except DecodeError Instr :=
  match fieldN w with
  | 0x0#4 => .ok (.ldReg (fieldX w) (fieldY w))
  | 0x1#4 => .ok (.orReg (fieldX w) (fieldY w))
  | 0x2#4 => .ok (.andReg (fieldX w) (fieldY w))
  | 0x3#4 => .ok (.xorReg (fieldX w) (fieldY w))
  | 0x4#4 => .ok (.addReg (fieldX w) (fieldY w))
  | 0x5#4 => .ok (.subReg (fieldX w) (fieldY w))
  | 0x6#4 => .ok (.shr (fieldX w) (fieldY w))
  | 0x7#4 => .ok (.subn (fieldX w) (fieldY w))
  | 0xE#4 => .ok (.shl (fieldX w) (fieldY w))
  | _ => .error (.illegalInstruction w)

/-- Family E of 30_encoding R77. -/
def decodeE (w : Word) : Except DecodeError Instr :=
  match fieldNN w with
  | 0x9E#8 => .ok (.skp (fieldX w))
  | 0xA1#8 => .ok (.sknp (fieldX w))
  | _ => .error (.illegalInstruction w)

/-- Family F of 30_encoding R77. -/
def decodeF (w : Word) : Except DecodeError Instr :=
  match fieldNN w with
  | 0x07#8 => .ok (.ldVxDt (fieldX w))
  | 0x0A#8 => .ok (.ldVxK (fieldX w))
  | 0x15#8 => .ok (.ldDtVx (fieldX w))
  | 0x18#8 => .ok (.ldStVx (fieldX w))
  | 0x1E#8 => .ok (.addI (fieldX w))
  | 0x29#8 => .ok (.ldF (fieldX w))
  | 0x33#8 => .ok (.ldB (fieldX w))
  | 0x55#8 => .ok (.ldMemVx (fieldX w))
  | 0x65#8 => .ok (.ldVxMem (fieldX w))
  | _ => .error (.illegalInstruction w)

/-- `decode(w)` of 30_encoding R77, total on all 65536 words. -/
def decode (w : Word) : Except DecodeError Instr :=
  match fieldF w with
  | 0x0#4 => .ok (decode0 w)
  | 0x1#4 => .ok (.jp (fieldNNN w))
  | 0x2#4 => .ok (.call (fieldNNN w))
  | 0x3#4 => .ok (.seImm (fieldX w) (fieldNN w))
  | 0x4#4 => .ok (.sneImm (fieldX w) (fieldNN w))
  | 0x5#4 => if fieldN w = 0#4 then .ok (.seReg (fieldX w) (fieldY w)) else .error (.illegalInstruction w)
  | 0x6#4 => .ok (.ldImm (fieldX w) (fieldNN w))
  | 0x7#4 => .ok (.addImm (fieldX w) (fieldNN w))
  | 0x8#4 => decode8 w
  | 0x9#4 => if fieldN w = 0#4 then .ok (.sneReg (fieldX w) (fieldY w)) else .error (.illegalInstruction w)
  | 0xA#4 => .ok (.ldI (fieldNNN w))
  | 0xB#4 => .ok (.jpV0 (fieldNNN w))
  | 0xC#4 => .ok (.rnd (fieldX w) (fieldNN w))
  | 0xD#4 => .ok (.drw (fieldX w) (fieldY w) (fieldN w))
  | 0xE#4 => decodeE w
  | _ => decodeF w

/-- The decoder on the two bytes of an instruction, as memory holds them (20_memory R55): total on any bytes. -/
def decodeBytes (hi lo : Byte) : Except DecodeError Instr := decode (concat hi lo)

/-- The instruction read from a word given as a number, its bits above `nbits` zero: the word is laid out high byte first, as the
block stores it, and its two bytes are decoded. -/
def decodeTableWord (nbits w : Nat) : Option Instr :=
  let word := BitVec.ofNat 16 (w % 2 ^ nbits)
  match decodeBytes (highByte word) (lowByte word) with
  | .ok i => some i
  | .error _ => none

/-- Format `addr` of 30_encoding R73: `F:4 NNN:12`. -/
def encodeAddr (f : Nat) (nnn : Addr) : Word := BitVec.ofNat 16 (f * 0x1000 + nnn.toNat)

/-- Formats `reg_imm` and `reg_op` of 30_encoding R73: `F:4 X:4 NN:8`. -/
def encodeRegImm (f : Nat) (x : Reg) (nn : Nat) : Word := BitVec.ofNat 16 (f * 0x1000 + x.val * 0x100 + nn)

/-- Formats `reg_reg` and `draw` of 30_encoding R73: `F:4 X:4 Y:4 N:4`. -/
def encodeRegReg (f : Nat) (x y : Reg) (n : Nat) : Word :=
  BitVec.ofNat 16 (f * 0x1000 + x.val * 0x100 + y.val * 0x10 + n)

/-- The word of an instruction, from its pattern in 30_encoding R75. -/
def encode : Instr → Word
  | .cls => 0x00E0#16
  | .ret => 0x00EE#16
  | .sys nnn => encodeAddr 0x0 nnn
  | .jp nnn => encodeAddr 0x1 nnn
  | .call nnn => encodeAddr 0x2 nnn
  | .seImm x nn => encodeRegImm 0x3 x nn.toNat
  | .sneImm x nn => encodeRegImm 0x4 x nn.toNat
  | .seReg x y => encodeRegReg 0x5 x y 0x0
  | .ldImm x nn => encodeRegImm 0x6 x nn.toNat
  | .addImm x nn => encodeRegImm 0x7 x nn.toNat
  | .ldReg x y => encodeRegReg 0x8 x y 0x0
  | .orReg x y => encodeRegReg 0x8 x y 0x1
  | .andReg x y => encodeRegReg 0x8 x y 0x2
  | .xorReg x y => encodeRegReg 0x8 x y 0x3
  | .addReg x y => encodeRegReg 0x8 x y 0x4
  | .subReg x y => encodeRegReg 0x8 x y 0x5
  | .shr x y => encodeRegReg 0x8 x y 0x6
  | .subn x y => encodeRegReg 0x8 x y 0x7
  | .shl x y => encodeRegReg 0x8 x y 0xE
  | .sneReg x y => encodeRegReg 0x9 x y 0x0
  | .ldI nnn => encodeAddr 0xA nnn
  | .jpV0 nnn => encodeAddr 0xB nnn
  | .rnd x nn => encodeRegImm 0xC x nn.toNat
  | .drw x y n => encodeRegReg 0xD x y n.toNat
  | .skp x => encodeRegImm 0xE x 0x9E
  | .sknp x => encodeRegImm 0xE x 0xA1
  | .ldVxDt x => encodeRegImm 0xF x 0x07
  | .ldVxK x => encodeRegImm 0xF x 0x0A
  | .ldDtVx x => encodeRegImm 0xF x 0x15
  | .ldStVx x => encodeRegImm 0xF x 0x18
  | .addI x => encodeRegImm 0xF x 0x1E
  | .ldF x => encodeRegImm 0xF x 0x29
  | .ldB x => encodeRegImm 0xF x 0x33
  | .ldMemVx x => encodeRegImm 0xF x 0x55
  | .ldVxMem x => encodeRegImm 0xF x 0x65

/-- The family nibble of each instruction's pattern (30_encoding R75). -/
def Instr.family : Instr → BitVec 4
  | .cls | .ret | .sys _ => 0x0#4
  | .jp _ => 0x1#4
  | .call _ => 0x2#4
  | .seImm _ _ => 0x3#4
  | .sneImm _ _ => 0x4#4
  | .seReg _ _ => 0x5#4
  | .ldImm _ _ => 0x6#4
  | .addImm _ _ => 0x7#4
  | .ldReg _ _ | .orReg _ _ | .andReg _ _ | .xorReg _ _ | .addReg _ _ | .subReg _ _ | .shr _ _ | .subn _ _ | .shl _ _ => 0x8#4
  | .sneReg _ _ => 0x9#4
  | .ldI _ => 0xA#4
  | .jpV0 _ => 0xB#4
  | .rnd _ _ => 0xC#4
  | .drw _ _ _ => 0xD#4
  | .skp _ | .sknp _ => 0xE#4
  | .ldVxDt _ | .ldVxK _ | .ldDtVx _ | .ldStVx _ | .addI _ | .ldF _ | .ldB _ | .ldMemVx _ | .ldVxMem _ => 0xF#4

end Sys2Proof
end

