-- ==== Sys2Proof/Config.lean ====
section
/-! DEFINITION. What an implementation fixes (spec 00_scope R6, R7; 43_display R190), and the one free value. -/

namespace Sys2Proof

/-- `MEM_SIZE`: 4096 cells (00_scope R6). -/
def Config.memSize : Nat := 4096

/-- `STACK_DEPTH`: 16, a parameter of the model (00_scope R7, 10_state R27). DESIGN CHOICE of the spec (D4), log 4. Unsafe if the
hardware's depth differs. -/
def Config.stackDepth : Nat := 16

/-- `FONT_SIZE`: 16 glyphs of 5 bytes (00_scope R6). -/
def Config.fontSize : Nat := 80

/-- The font table's type: 80 bytes (43_display R190). -/
abbrev Font := Vector Byte 80

/-- `FONT`, the default of 43_display R190: glyph d is bytes 5d to 5d+4, top row first. PRESUMED by the spec itself ("from general
knowledge, not in source", D28), log 5. `loadWith` takes any font; only `load` names this one. -/
def Config.font : Font := #v[
  0xF0, 0x90, 0x90, 0x90, 0xF0,  0x20, 0x60, 0x20, 0x20, 0x70,
  0xF0, 0x10, 0xF0, 0x80, 0xF0,  0xF0, 0x10, 0xF0, 0x10, 0xF0,
  0x90, 0x90, 0xF0, 0x10, 0x10,  0xF0, 0x80, 0xF0, 0x10, 0xF0,
  0xF0, 0x80, 0xF0, 0x90, 0xF0,  0xF0, 0x10, 0x20, 0x40, 0x40,
  0xF0, 0x90, 0xF0, 0x90, 0xF0,  0xF0, 0x90, 0xF0, 0x10, 0xF0,
  0xF0, 0x90, 0xF0, 0x90, 0x90,  0xE0, 0x90, 0xE0, 0x90, 0xE0,
  0xF0, 0x80, 0x80, 0x80, 0xF0,  0xE0, 0x90, 0x90, 0x90, 0xE0,
  0xF0, 0x80, 0xF0, 0x80, 0xF0,  0xF0, 0x80, 0xF0, 0x80, 0x80]

/-- The random-byte input (10_state R33, 41_alu R145): the byte the n-th draw gives. FREE VALUE, log 3: it has no body, so every
claim holds for every sequence of bytes. -/
opaque Config.randomByte : Nat → Byte

end Sys2Proof
end

