-- ==== Sys2Proof/Machine/State.lean ====
section
/-! DEFINITION. Everything the spec gives the machine to hold (10_state R20 to R36, 20_memory R50), as plain data, and its value after
construction (10_state R35). -/

namespace Sys2Proof.Machine

/-- The error kinds of 60_exceptions R220, with the value each records. `Faulted(e)` and port results carry them; taking one is a
NEXT state (log 7), so they are no `Fault`. -/
inductive ErrorKind where
  /-- Code 1: `step` while `run = Unloaded`. -/
  | notLoaded
  /-- Code 2: `load` with `program_base + len > 4096`. -/
  | oversizedProgram
  /-- Code 3: `load` with `program_base < 0x200` or `font_base + 80 > 0x200`. -/
  | invalidBase
  /-- Code 4: the fetched word `w` matches no row of 30_encoding R75. -/
  | illegalInstruction (w : Word)
  /-- Code 5: 00EE with an empty stack. -/
  | stackUnderflow
  /-- Code 6: 2NNN with a full stack. -/
  | stackOverflow
  /-- Code 7: an access at `a >= 0x1000`; `a` is the lowest failing address, an unbounded integer (20_memory R52, R54). -/
  | addressError (a : Nat)
  /-- Code 8: EX9E or EXA1 with `V[X] = v > 15`. -/
  | keyIndexError (v : Byte)
deriving DecidableEq, Repr

/-- The run states of 10_state R31. -/
inductive RunState where
  | unloaded
  | running
  | awaitingKey (x : Reg)
  | faulted (e : ErrorKind)
  | stopped
deriving DecidableEq, Repr

/-- Memory (20_memory R50): the cells whose byte is not `Memory.unlisted`, addresses strictly rising. -/
abbrev Memory := List Host.Cell

/-- What an unlisted address reads as: memory is "zero-initialized" (10_state R35), log 2. -/
def Memory.unlisted : Byte := 0x00#8

/-- The canonical form: addresses strictly rising and inside the 4096 cells, no cell equal to what an unlisted address reads as. -/
abbrev Memory.wf (m : Memory) : Prop :=
  m.Pairwise (fun c d => c.1 < d.1) ∧ ∀ c ∈ m, c.1 < Config.memSize ∧ c.2 ≠ Memory.unlisted

/-- The framebuffer: 32 rows of 64 pixels, `true` is set (10_state R29). -/
abbrev Framebuffer := Vector (Vector Bool 64) 32

/-- All pixels 0. -/
def Framebuffer.blank : Framebuffer := Vector.replicate 32 (Vector.replicate 64 false)

/-- The state of the block (10_state R20 to R31, 20_memory R50). -/
structure State where
  /-- `V[0..15]` (R20). -/
  v : Vector Byte 16
  /-- `I` (R25). -/
  i : Word
  /-- `PC` (R26). -/
  pc : Word
  /-- The call stack `S`, most recent return address first (R27). -/
  stack : List Word
  /-- The delay timer `DT` (R28). -/
  dt : Byte
  /-- The sound timer `ST` (R28). -/
  st : Byte
  /-- The framebuffer `FB` (R29). -/
  fb : Framebuffer
  /-- The key flags `K[0..15]`, `true` is pressed (R30). -/
  keys : Vector Bool 16
  /-- `run` (R31). -/
  run : RunState
  /-- The `font_base` latch (R31). -/
  fontBase : Word
  /-- `key_latch` (R31). -/
  keyLatch : Option Key
  /-- `Mem` (20_memory R50). -/
  mem : Memory
  /-- The MODEL'S OWN field, not the spec's: how many random bytes have been drawn (log 3). -/
  draws : Nat
deriving DecidableEq, Repr

/-- Power-on: the "after construction" column of 10_state R35 (log 1). `draws` starts at 0, a DESIGN CHOICE no statement rests on
(log 3). -/
def State.reset : State where
  v := Vector.replicate 16 0x00#8
  i := 0x0000#16
  pc := 0x0000#16
  stack := []
  dt := 0x00#8
  st := 0x00#8
  fb := Framebuffer.blank
  keys := Vector.replicate 16 false
  run := .unloaded
  fontBase := 0x0000#16
  keyLatch := none
  mem := []
  draws := 0

/-- What ends a run outside the block's own states. There is none: every error of 60_exceptions R220 is taken as a next state with
`run = Faulted(e)` (R226), so no operation raises a `Fault`, which is safe: nothing the spec gives an effect is cut off (log 7). -/
inductive Fault where
deriving DecidableEq, Repr

/-- What is refused without a transition. -/
inductive Refusal where
  /-- Raised by `exec` for an instruction that has no meaning yet; safe. No arm raises it: all 35 have one. -/
  | notModelled (mnemonic : String)
  /-- Raised by the port `set_key` for a key index above 15 (60_exceptions R243, D37): no transition; safe. -/
  | keyOutsidePort (k : Nat)
deriving DecidableEq, Repr

end Sys2Proof.Machine
end

