-- ==== Sys2Proof/Machine/Ops.lean ====
section
/-! DEFINITION. The named operations over memory, registers, the framebuffer and the run state, and taking an error
(60_exceptions R226). -/

namespace Sys2Proof.Machine

/-! ### Memory (20_memory R50 to R54) -/

/-- The byte at an address: the listed one, else `Memory.unlisted`. -/
def Memory.read : Memory → Nat → Byte
  | [], _ => Memory.unlisted
  | c :: rest, a => if c.1 = a then c.2 else Memory.read rest a

/-- Put a cell in its place by address. -/
def Memory.insert : Memory → Host.Cell → Memory
  | [], c => [c]
  | d :: rest, c => if c.1 < d.1 then c :: d :: rest else d :: Memory.insert rest c

/-- Store a byte and keep the canonical form: the old cell goes, and a byte equal to `Memory.unlisted` gets none. -/
def Memory.write (m : Memory) (a : Nat) (b : Byte) : Memory :=
  let rest := m.filter (fun c => c.1 != a)
  if b = Memory.unlisted then rest else Memory.insert rest (a, b)

/-- The bytes at `base`, `base + 1`, … (`n` of them; no wrap, 20_memory R52). -/
def Memory.readBlock (m : Memory) (base n : Nat) : List Byte :=
  (List.range n).map (fun k => m.read (base + k))

/-- Store bytes at `base`, `base + 1`, … in order. -/
def Memory.writeBlock (m : Memory) (base : Nat) : List Byte → Memory
  | [] => m
  | b :: rest => Memory.writeBlock (m.write base b) (base + 1) rest

/-- The range check of 20_memory R53 on the `n` addresses from `base` up, all before any effect (R54): the lowest failing address,
if there is one. -/
def firstBadAddress (base n : Nat) : Option Nat :=
  ((List.range n).map (fun k => base + k)).find? (fun a => Config.memSize ≤ a)

/-! ### Registers, one home each (00_scope R9) -/

/-- `V[r]`. -/
def State.getV (s : State) (r : Reg) : Byte := s.v[r]

/-- `V[r] <- b`. -/
def State.setV (s : State) (r : Reg) (b : Byte) : State := { s with v := s.v.set r b }

/-- `I <- w`. -/
def State.setI (s : State) (w : Word) : State := { s with i := w }

/-- `pc <- w`. -/
def State.setPc (s : State) (w : Word) : State := { s with pc := w }

/-- Replace the call stack. -/
def State.setStack (s : State) (l : List Word) : State := { s with stack := l }

/-- `DT <- b`. -/
def State.setDt (s : State) (b : Byte) : State := { s with dt := b }

/-- `ST <- b`. -/
def State.setSt (s : State) (b : Byte) : State := { s with st := b }

/-- Replace the framebuffer. -/
def State.setFb (s : State) (fb : Framebuffer) : State := { s with fb := fb }

/-- `K[k] <- pressed`. -/
def State.setKeyFlag (s : State) (k : Key) (pressed : Bool) : State := { s with keys := s.keys.set k pressed }

/-- `run <- r`. -/
def State.setRun (s : State) (r : RunState) : State := { s with run := r }

/-- `key_latch <- l`. -/
def State.setKeyLatch (s : State) (l : Option Key) : State := { s with keyLatch := l }

/-- Replace memory. -/
def State.setMem (s : State) (m : Memory) : State := { s with mem := m }

/-- Count one draw of the random-byte input (log 3). -/
def State.countDraw (s : State) : State := { s with draws := s.draws + 1 }

/-- `K[k]`. -/
def State.keyFlag (s : State) (k : Key) : Bool := s.keys[k]

/-! ### The program counter (30_encoding R86) -/

/-- The default `pc_next = trunc_16(pc_cur + 2)`. -/
def State.advance (s : State) : State := s.setPc (s.pc + 2#16)

/-- A conditional skip (40_control_flow R100): `trunc_16(pc_cur + 4)` if the condition holds, else the default. -/
def State.skipIf (s : State) (cond : Bool) : State := s.setPc (s.pc + if cond then 4#16 else 2#16)

/-! ### Taking an error -/

/-- Fault entry (60_exceptions R225, R226): `run <- Faulted(e)` and nothing else changes, so PC stays at the faulting instruction and
no write of the instruction is kept. There is no saved register, no vector and no return instruction (R228): only `load` leaves the
faulted state. -/
def State.enterFault (s : State) (e : ErrorKind) : State := s.setRun (.faulted e)

/-- A step's next state, on an error raised by the instruction: the state before it, faulted. -/
def raise (e : ErrorKind) (s : State) : Host.Outcome State Fault Refusal := .next (s.enterFault e)

/-- Run an effect that touches the `n` bytes from `base` up, after the check of all of them (20_memory R54). -/
def withRange (base n : Nat) (s : State) (effect : State) : Host.Outcome State Fault Refusal :=
  match firstBadAddress base n with
  | some a => raise (.addressError a) s
  | none => .next effect

/-! ### The framebuffer (43_display R180 to R187) -/

/-- `FB[r][c]`. -/
def Framebuffer.pixel (fb : Framebuffer) (r : Fin 32) (c : Fin 64) : Bool := fb[r][c]

/-- `FB[r][c] <- FB[r][c] XOR 1`. -/
def Framebuffer.flip (fb : Framebuffer) (r : Fin 32) (c : Fin 64) : Framebuffer :=
  fb.set r (fb[r].set c (!fb[r][c]))

/-- Row `n mod 32` (43_display R184). -/
def wrapRow (n : Nat) : Fin 32 := ⟨n % 32, Nat.mod_lt n (by decide)⟩

/-- Column `n mod 64` (43_display R184). -/
def wrapCol (n : Nat) : Fin 64 := ⟨n % 64, Nat.mod_lt n (by decide)⟩

/-- `bit(b, j) = b[7 - j]` (43_display R183): the most significant bit is the leftmost pixel (log 12). -/
def spriteBit (b : Byte) (j : Nat) : Bool := b.getLsbD (7 - j)

/-- The framebuffer and the collision flag while a blit runs (43_display R185). -/
structure Blit where
  fb : Framebuffer
  collision : Bool
deriving DecidableEq, Repr

/-- One sprite bit of 1 at a pixel: it collides if the pixel is 1, and flips it (43_display R185). -/
def blitPixel (r : Fin 32) (c : Fin 64) (d : Blit) : Blit :=
  { fb := d.fb.flip r c, collision := d.collision || d.fb.pixel r c }

/-- The inner loop of 43_display R185: sprite byte `b` on row `r` from column `x0`. -/
def blitRow (x0 : Nat) (r : Fin 32) (b : Byte) (d : Blit) : Blit :=
  (List.range 8).foldl (fun d j => if spriteBit b j then blitPixel r (wrapCol (x0 + j)) d else d) d

/-- The outer loop of 43_display R185: the sprite's bytes on rows `y`, `y + 1`, …. -/
def blitRows (x0 : Nat) : Nat → List Byte → Blit → Blit
  | _, [], d => d
  | y, b :: rest, d => blitRows x0 (y + 1) rest (blitRow x0 (wrapRow y) b d)

/-! ### Fetch (30_encoding R84) -/

/-- The instruction word at PC, big-endian, after the check of both addresses. -/
def fetch (s : State) : Except ErrorKind Word :=
  match firstBadAddress s.pc.toNat 2 with
  | some a => .error (.addressError a)
  | none => .ok (concat (s.mem.read s.pc.toNat) (s.mem.read (s.pc.toNat + 1)))

/-- Lay a word at an address the way the fetch reads it. -/
def Memory.placeWord (m : Memory) (a : Nat) (w : Word) : Memory :=
  m.writeBlock a [highByte w, lowByte w]

end Sys2Proof.Machine
end

