-- ==== Sys2Proof/Machine/Flags.lean ====
section
/-! DEFINITION. Every flag the spec gives: all go to VF as the byte 0 or 1 (10_state R23, R24). -/

namespace Sys2Proof.Machine

/-- The flag byte: 1 or 0. -/
def flagByte (b : Bool) : Byte := if b then 1#8 else 0#8

/-- 8XY4: the exact sum exceeds 255 (41_alu R140). -/
def carry (x y : Byte) : Bool := 255 < x.toNat + y.toNat

/-- 8XY5 and, with the operands exchanged, 8XY7: no borrow (41_alu R141, R143). -/
def noBorrow (x y : Byte) : Bool := y.toNat ≤ x.toNat

/-- 8XY6: bit 0, the bit shifted out (41_alu R142). -/
def shiftedOutRight (y : Byte) : Bool := y.getLsbD 0

/-- 8XYE: bit 7, the bit shifted out (41_alu R144, R147). -/
def shiftedOutLeft (y : Byte) : Bool := y.getLsbD 7

/-- Write a result to `V[x]` first and a flag to VF last (41_alu R132, log 10): when x is 15 the flag stays. -/
def State.setResultAndFlag (s : State) (x : Reg) (result : Byte) (flag : Bool) : State :=
  (s.setV x result).setV Reg.vf (flagByte flag)

end Sys2Proof.Machine
end

