-- ==== Sys2Proof/Machine/Operands.lean ====
section
/-! DEFINITION. The operand forms of 30_encoding R73 and R74 and of 42_index_memory R160: registers and immediates stand in the
instruction; here is what is computed from them. No immediate is sign-extended, scaled or shifted (R74). -/

namespace Sys2Proof.Machine

/-- `NNN` as a 16-bit address, zero-extended (30_encoding R74). -/
def addrOperand (nnn : Addr) : Word := nnn.setWidth 16

/-- A byte zero-extended to 16 bits. -/
def wideByte (b : Byte) : Word := b.setWidth 16

/-- The base of an I-based access, an unbounded integer (20_memory R52, 42_index_memory R160). -/
def State.indexBase (s : State) : Nat := s.i.toNat

/-- The registers `V[0]` to `V[X]` of FX55 and FX65, in order (30_encoding R74). -/
def regsUpTo (x : Reg) : List Reg :=
  ([0, 1, 2, 3, 4, 5, 6, 7, 8, 9, 10, 11, 12, 13, 14, 15] : List Reg).filter (fun k => k.val ≤ x.val)

/-- How many bytes FX55 and FX65 move: X + 1 (42_index_memory R165, R166). -/
def blockSize (x : Reg) : Nat := x.val + 1

/-- The three decimal digits of a byte, hundreds first, each a whole byte (42_index_memory R164). -/
def bcdDigits (b : Byte) : List Byte :=
  [BitVec.ofNat 8 (b.toNat / 100), BitVec.ofNat 8 (b.toNat / 10 % 10), BitVec.ofNat 8 (b.toNat % 10)]

/-- `V[k] <- MemRead(I + k, 1)` for the registers given, in order (42_index_memory R166). -/
def State.loadRegs (s : State) (regs : List Reg) : State :=
  regs.foldl (fun t k => t.setV k (t.mem.read (t.indexBase + k.val))) s

/-- The key that a byte names, if it names one: 0 to 15 (44_keys_timers R200). -/
def keyOperand (b : Byte) : Option Key := if h : b.toNat < 16 then some ⟨b.toNat, h⟩ else none

/-- The byte FX0A's completion writes for a key (44_keys_timers R205). -/
def keyByte (k : Key) : Byte := BitVec.ofNat 8 k.val

end Sys2Proof.Machine
end

