-- ==== Sys2Proof/Machine/Alu.lean ====
section
/-! DEFINITION. The 8-bit ALU: 6XNN, 7XNN, 8XY0 to 8XY7, 8XYE, CXNN (spec 41_alu). Operands are read from the state before the
instruction (R131); results wrap modulo 256 (R130). -/

namespace Sys2Proof.Machine

/-- 6XNN `LD Vx, nn` (R133). -/
def execLdImm (x : Reg) (nn : Byte) (s : State) : Host.Outcome State Fault Refusal :=
  .next (s.setV x nn).advance

/-- 7XNN `ADD Vx, nn`: no flag (R134). -/
def execAddImm (x : Reg) (nn : Byte) (s : State) : Host.Outcome State Fault Refusal :=
  .next (s.setV x (s.getV x + nn)).advance

/-- 8XY0 `LD Vx, Vy` (R135). -/
def execLdReg (x y : Reg) (s : State) : Host.Outcome State Fault Refusal :=
  .next (s.setV x (s.getV y)).advance

/-- 8XY1 `OR Vx, Vy`: no flag (R136). -/
def execOrReg (x y : Reg) (s : State) : Host.Outcome State Fault Refusal :=
  .next (s.setV x (s.getV x ||| s.getV y)).advance

/-- 8XY2 `AND Vx, Vy`: no flag (R137). -/
def execAndReg (x y : Reg) (s : State) : Host.Outcome State Fault Refusal :=
  .next (s.setV x (s.getV x &&& s.getV y)).advance

/-- 8XY3 `XOR Vx, Vy`: no flag (R138). -/
def execXorReg (x y : Reg) (s : State) : Host.Outcome State Fault Refusal :=
  .next (s.setV x (s.getV x ^^^ s.getV y)).advance

/-- 8XY4 `ADD Vx, Vy` (R140). -/
def execAddReg (x y : Reg) (s : State) : Host.Outcome State Fault Refusal :=
  .next (s.setResultAndFlag x (s.getV x + s.getV y) (carry (s.getV x) (s.getV y))).advance

/-- 8XY5 `SUB Vx, Vy`: modular, never an absolute value (R141, R147). -/
def execSubReg (x y : Reg) (s : State) : Host.Outcome State Fault Refusal :=
  .next (s.setResultAndFlag x (s.getV x - s.getV y) (noBorrow (s.getV x) (s.getV y))).advance

/-- 8XY6 `SHR Vx, Vy`: the source is VY (R142). -/
def execShr (x y : Reg) (s : State) : Host.Outcome State Fault Refusal :=
  .next (s.setResultAndFlag x (s.getV y >>> 1) (shiftedOutRight (s.getV y))).advance

/-- 8XY7 `SUBN Vx, Vy` (R143). -/
def execSubn (x y : Reg) (s : State) : Host.Outcome State Fault Refusal :=
  .next (s.setResultAndFlag x (s.getV y - s.getV x) (noBorrow (s.getV y) (s.getV x))).advance

/-- 8XYE `SHL Vx, Vy`: the source is VY (R144). -/
def execShl (x y : Reg) (s : State) : Host.Outcome State Fault Refusal :=
  .next (s.setResultAndFlag x (s.getV y <<< 1) (shiftedOutLeft (s.getV y))).advance

/-- CXNN `RND Vx, nn`: a fresh byte of the random input, masked (R145); the byte is a free value (log 3). -/
def execRnd (x : Reg) (nn : Byte) (s : State) : Host.Outcome State Fault Refusal :=
  .next ((s.setV x (Config.randomByte s.draws &&& nn)).countDraw).advance

end Sys2Proof.Machine
end

