-- ==== Sys2Proof/Machine/Control.lean ====
section
/-! DEFINITION. Control transfer: 00EE, 0NNN, 1NNN, 2NNN, 3XNN, 4XNN, 5XY0, 9XY0, BNNN (spec 40_control_flow). -/

namespace Sys2Proof.Machine

/-- 00EE `RET` (R101). -/
def execRet (s : State) : Host.Outcome State Fault Refusal :=
  match s.stack with
  | [] => raise .stackUnderflow s
  | a :: rest => .next ((s.setStack rest).setPc a)

/-- 0NNN `SYS nnn`: a jump, nothing is pushed (R102). -/
def execSys (nnn : Addr) (s : State) : Host.Outcome State Fault Refusal :=
  .next (s.setPc (addrOperand nnn))

/-- 1NNN `JP nnn` (R103). -/
def execJp (nnn : Addr) (s : State) : Host.Outcome State Fault Refusal :=
  .next (s.setPc (addrOperand nnn))

/-- 2NNN `CALL nnn`: pushes the address of the next instruction (R104). -/
def execCall (nnn : Addr) (s : State) : Host.Outcome State Fault Refusal :=
  if s.stack.length = Config.stackDepth then raise .stackOverflow s
  else .next ((s.setStack ((s.pc + 2#16) :: s.stack)).setPc (addrOperand nnn))

/-- 3XNN `SE Vx, nn` (R105). -/
def execSeImm (x : Reg) (nn : Byte) (s : State) : Host.Outcome State Fault Refusal :=
  .next (s.skipIf (s.getV x == nn))

/-- 4XNN `SNE Vx, nn` (R106). -/
def execSneImm (x : Reg) (nn : Byte) (s : State) : Host.Outcome State Fault Refusal :=
  .next (s.skipIf (s.getV x != nn))

/-- 5XY0 `SE Vx, Vy` (R107). -/
def execSeReg (x y : Reg) (s : State) : Host.Outcome State Fault Refusal :=
  .next (s.skipIf (s.getV x == s.getV y))

/-- 9XY0 `SNE Vx, Vy` (R108). -/
def execSneReg (x y : Reg) (s : State) : Host.Outcome State Fault Refusal :=
  .next (s.skipIf (s.getV x != s.getV y))

/-- BNNN `JP V0, nnn`: the sum is not masked to 12 bits (R109). -/
def execJpV0 (nnn : Addr) (s : State) : Host.Outcome State Fault Refusal :=
  .next (s.setPc (addrOperand nnn + wideByte (s.getV Reg.v0)))

end Sys2Proof.Machine
end

