-- ==== Sys2Proof/Machine/Display.lean ====
section
/-! DEFINITION. The display instructions: 00E0, DXYN (spec 43_display). -/

namespace Sys2Proof.Machine

/-- 00E0 `CLS` (R181). -/
def execCls (s : State) : Host.Outcome State Fault Refusal :=
  .next (s.setFb Framebuffer.blank).advance

/-- The blit of DXYN on a state: origin from the registers, `n` sprite bytes from memory at I (R182, R185). -/
def State.blit (s : State) (x y : Reg) (n : BitVec 4) : Blit :=
  blitRows (s.getV x).toNat (s.getV y).toNat (s.mem.readBlock s.indexBase n.toNat) { fb := s.fb, collision := false }

/-- DXYN `DRW Vx, Vy, n`: the pixels first, then VF = collision (R185); N = 0 reads nothing and writes VF = 0 (R186). -/
def execDrw (x y : Reg) (n : BitVec 4) (s : State) : Host.Outcome State Fault Refusal :=
  withRange s.indexBase n.toNat s
    ((s.setFb (s.blit x y n).fb).setV Reg.vf (flagByte (s.blit x y n).collision)).advance

end Sys2Proof.Machine
end

