-- ==== Sys2Proof/Machine/Index.lean ====
section
/-! DEFINITION. The index register and memory transfers: ANNN, FX1E, FX29, FX33, FX55, FX65 (spec 42_index_memory). -/

namespace Sys2Proof.Machine

/-- ANNN `LD I, nnn` (R161). -/
def execLdI (nnn : Addr) (s : State) : Host.Outcome State Fault Refusal :=
  .next (s.setI (addrOperand nnn)).advance

/-- FX1E `ADD I, Vx`: modulo 65536, no flag (R162). -/
def execAddI (x : Reg) (s : State) : Host.Outcome State Fault Refusal :=
  .next (s.setI (s.i + wideByte (s.getV x))).advance

/-- FX29 `LD F, Vx`: `font_base + 5 * V[X]`, V[X] not masked (R163). -/
def execLdF (x : Reg) (s : State) : Host.Outcome State Fault Refusal :=
  .next (s.setI (s.fontBase + 5#16 * wideByte (s.getV x))).advance

/-- FX33 `LD B, Vx`: hundreds, tens and units to I, I + 1, I + 2 (R164). -/
def execLdB (x : Reg) (s : State) : Host.Outcome State Fault Refusal :=
  withRange s.indexBase 3 s (s.setMem (s.mem.writeBlock s.indexBase (bcdDigits (s.getV x)))).advance

/-- FX55 `LD [I], Vx`: V0 to VX to memory, I unchanged (R165). -/
def execLdMemVx (x : Reg) (s : State) : Host.Outcome State Fault Refusal :=
  withRange s.indexBase (blockSize x) s
    (s.setMem (s.mem.writeBlock s.indexBase ((regsUpTo x).map s.getV))).advance

/-- FX65 `LD Vx, [I]`: memory to V0 to VX, I unchanged (R166). -/
def execLdVxMem (x : Reg) (s : State) : Host.Outcome State Fault Refusal :=
  withRange s.indexBase (blockSize x) s (s.loadRegs (regsUpTo x)).advance

end Sys2Proof.Machine
end

