-- ==== Sys2Proof/Machine/Keys.lean ====
section
/-! DEFINITION. Key tests, key wait and timer access: EX9E, EXA1, FX07, FX0A, FX15, FX18 (spec 44_keys_timers). -/

namespace Sys2Proof.Machine

/-- EX9E `SKP Vx` (R201). -/
def execSkp (x : Reg) (s : State) : Host.Outcome State Fault Refusal :=
  match keyOperand (s.getV x) with
  | none => raise (.keyIndexError (s.getV x)) s
  | some k => .next (s.skipIf (s.keyFlag k))

/-- EXA1 `SKNP Vx` (R202). -/
def execSknp (x : Reg) (s : State) : Host.Outcome State Fault Refusal :=
  match keyOperand (s.getV x) with
  | none => raise (.keyIndexError (s.getV x)) s
  | some k => .next (s.skipIf (!s.keyFlag k))

/-- FX07 `LD Vx, DT` (R203). -/
def execLdVxDt (x : Reg) (s : State) : Host.Outcome State Fault Refusal :=
  .next (s.setV x s.dt).advance

/-- FX0A `LD Vx, K`: PC moves on and the block waits for a new press (R204, log 9). -/
def execLdVxK (x : Reg) (s : State) : Host.Outcome State Fault Refusal :=
  .next ((s.setRun (.awaitingKey x)).setKeyLatch none).advance

/-- FX15 `LD DT, Vx` (R206). -/
def execLdDtVx (x : Reg) (s : State) : Host.Outcome State Fault Refusal :=
  .next (s.setDt (s.getV x)).advance

/-- FX18 `LD ST, Vx` (R207). -/
def execLdStVx (x : Reg) (s : State) : Host.Outcome State Fault Refusal :=
  .next (s.setSt (s.getV x)).advance

/-- A step while `run = AwaitingKey(x)` (R205): nothing without a latched key; with one, V[x] gets it and the block runs again, PC
unchanged and nothing fetched. -/
def completeWait (x : Reg) (s : State) : Host.Outcome State Fault Refusal :=
  match s.keyLatch with
  | none => .next s
  | some k => .next (((s.setV x (keyByte k)).setKeyLatch none).setRun .running)

end Sys2Proof.Machine
end

