-- ==== Sys2Proof/Machine/Cycle.lean ====
section
/-! DEFINITION. The fetch/decode/dispatch cycle (30_encoding R81 to R87): what one call of the port `step` does to the state. -/

namespace Sys2Proof.Machine

/-- The error a word that is no instruction raises (30_encoding R78). -/
def illegalWord : DecodeError → ErrorKind
  | .illegalInstruction w => .illegalInstruction w

/-- `execute_one()` of 30_encoding R82: fetch, decode, perform; an error of any of them enters the faulted state. -/
def executeOne (s : State) : Host.Outcome State Fault Refusal :=
  match fetch s with
  | .error e => raise e s
  | .ok w =>
    match decode w with
    | .error e => raise (illegalWord e) s
    | .ok i => exec i s

/-- `step()` of 30_encoding R82 on the state: in `Unloaded`, `Faulted` and `Stopped` nothing changes; in `AwaitingKey` the wait may
complete; in `Running` one instruction executes. -/
def cycle (s : State) : Host.Outcome State Fault Refusal :=
  match s.run with
  | .unloaded => .next s
  | .faulted _ => .next s
  | .stopped => .next s
  | .awaitingKey x => completeWait x s
  | .running => executeOne s

/-- Where the next instruction is placed: PC if a whole word fits there, else 0x200 (20_memory R59). -/
def placePc (s : State) : Word := if s.pc.toNat + 1 < Config.memSize then s.pc else 0x200#16

/-- The state with a word where `cycle` fetches next, running: it stands for the host's `load` (log 2). PC moves only if no word
fits there; a pending wait is over, so its latch is cleared. -/
def placeInstruction (s : State) (w : Word) : State :=
  let latch := if s.run = .running then s.keyLatch else none
  (((s.setPc (placePc s)).setRun .running).setKeyLatch latch).setMem (s.mem.placeWord (placePc s).toNat w)

end Sys2Proof.Machine
end

