-- ==== Sys2Proof/Machine/Step.lean ====
section
/-! DEFINITION. The step of the machine: one call of the port `step` (30_encoding R82). -/

namespace Sys2Proof.Machine

/-- One call of the port `step`: the next state. Its result for the host is `stepResult` (Machine/Ports.lean). -/
def step (s : State) : Host.Outcome State Fault Refusal := cycle s

/-- The state with the instruction word `w` (its bits above `nbits` zero) stored where `step` fetches next, and running (log 2). -/
def State.withFetchWord (s : State) (nbits w : Nat) : State :=
  placeInstruction s (BitVec.ofNat 16 (w % 2 ^ nbits))

end Sys2Proof.Machine
end

