-- ==== Sys2Proof/Machine/Ports.lean ====
section
/-! DEFINITION. The host's ports (60_exceptions R240), each one atomic transaction on the state (00_scope R18). -/

namespace Sys2Proof.Machine

/-- The code of an error kind (60_exceptions R220). -/
def ErrorKind.code : ErrorKind → Nat
  | .notLoaded => 1
  | .oversizedProgram => 2
  | .invalidBase => 3
  | .illegalInstruction _ => 4
  | .stackUnderflow => 5
  | .stackOverflow => 6
  | .addressError _ => 7
  | .keyIndexError _ => 8

/-- What `step` and `load` return (30_encoding R83, 70_reset R263). -/
inductive Result where
  | ok
  | waiting
  | stopped
  | err (e : ErrorKind)
deriving DecidableEq, Repr

/-- The result of an executed instruction, read off the state it leaves: `Err(e)` if it faulted, else `Ok` (30_encoding R82). -/
def resultOf : Host.Outcome State Fault Refusal → Result
  | .next t =>
    match t.run with
    | .faulted e => .err e
    | _ => .ok
  | .fault _ => .ok
  | .refused _ => .ok

/-- What `step()` returns to the host (30_encoding R82, R83). -/
def stepResult (s : State) : Result :=
  match s.run with
  | .unloaded => .err .notLoaded
  | .faulted e => .err e
  | .stopped => .stopped
  | .awaitingKey _ => if s.keyLatch = none then .waiting else .ok
  | .running => resultOf (step s)

/-- The checks of `load`, in their order (70_reset R263): the error, if there is one. -/
def loadCheck (len programBase fontBase : Nat) : Option ErrorKind :=
  if programBase < 0x200 ∨ fontBase + Config.fontSize > 0x200 then some .invalidBase
  else if programBase + len > Config.memSize then some .oversizedProgram
  else none

/-- Memory after a successful load: zero, then the font, then the program (70_reset R264). -/
def loadedMemory (font : Font) (program : List Byte) (programBase fontBase : Nat) : Memory :=
  (Memory.writeBlock [] fontBase font.toList).writeBlock programBase program

/-- The effect of a successful load (70_reset R264). `K` is the host's and stays; `draws` is the model's own counter and stays, so
that later draws stay fresh (log 3). -/
def loadedState (font : Font) (program : List Byte) (programBase fontBase : Nat) (s : State) : State :=
  { State.reset with
    mem := loadedMemory font program programBase fontBase
    pc := BitVec.ofNat 16 programBase
    fontBase := BitVec.ofNat 16 fontBase
    run := .running
    keys := s.keys
    draws := s.draws }

/-- `load(program, program_base, font_base)` with the font table given (43_display R190): a failed load changes nothing (70_reset
R263). -/
def loadWith (font : Font) (program : List Byte) (programBase fontBase : Nat) (s : State) : State :=
  match loadCheck program.length programBase fontBase with
  | some _ => s
  | none => loadedState font program programBase fontBase s

/-- `load` with the default font (43_display R190). -/
def load (program : List Byte) (programBase fontBase : Nat) (s : State) : State :=
  loadWith Config.font program programBase fontBase s

/-- What `load` returns (70_reset R263). -/
def loadResult (program : List Byte) (programBase fontBase : Nat) : Result :=
  match loadCheck program.length programBase fontBase with
  | some e => .err e
  | none => .ok

/-- One timer's tick: down by 1, floor 0 (60_exceptions R245). -/
def tickDown (b : Byte) : Byte := if b = 0#8 then 0#8 else b - 1#8

/-- `tick_timers()`: both timers in one transaction, in every run state (60_exceptions R245). -/
def tickTimers (s : State) : State := (s.setDt (tickDown s.dt)).setSt (tickDown s.st)

/-- `framebuffer_snapshot()`: a copy of FB (60_exceptions R244). -/
def framebufferSnapshot (s : State) : Framebuffer := s.fb

/-- `sound_active = (ST != 0)`, an observation (60_exceptions R246; log 20). -/
def soundActive (s : State) : Bool := s.st != 0#8

/-- The latch after `set_key` on a key 0 to 15 (60_exceptions R243): the first new press while waiting. -/
def latchAfter (s : State) (k : Key) (pressed : Bool) : Option Key :=
  match s.run with
  | .awaitingKey _ => if pressed && !s.keyFlag k && s.keyLatch == none then some k else s.keyLatch
  | .unloaded | .running | .faulted _ | .stopped => s.keyLatch

/-- `set_key(k, pressed)` (60_exceptions R243): a key above 15 is refused, with no transition. -/
def setKey (k : Nat) (pressed : Bool) (s : State) : Host.Outcome State Fault Refusal :=
  if h : k < 16 then .next ((s.setKeyFlag ⟨k, h⟩ pressed).setKeyLatch (latchAfter s ⟨k, h⟩ pressed))
  else .refused (.keyOutsidePort k)

/-- `terminate()`: a clean stop of a running or waiting block, else nothing (60_exceptions R248). -/
def terminate (s : State) : State :=
  match s.run with
  | .running | .awaitingKey _ => (s.setRun .stopped).setKeyLatch none
  | .unloaded | .faulted _ | .stopped => s

/-- The ports a host calls (60_exceptions R240). The random-byte input is `Config.randomByte`. -/
inductive Port where
  | load (program : List Byte) (programBase fontBase : Nat)
  | step
  | tickTimers
  | framebufferSnapshot
  | setKey (k : Nat) (pressed : Bool)
  | terminate
deriving DecidableEq, Repr

/-- One transaction (60_exceptions R240): the state after it, or the port's refusal. -/
def transact (p : Port) (s : State) : Host.Outcome State Fault Refusal :=
  match p with
  | .load program programBase fontBase => .next (load program programBase fontBase s)
  | .step => step s
  | .tickTimers => .next (tickTimers s)
  | .framebufferSnapshot => .next s
  | .setKey k pressed => setKey k pressed s
  | .terminate => .next (terminate s)

/-- What a port returns (60_exceptions R240). -/
inductive Reply where
  | nothing
  | result (r : Result)
  | pixels (fb : Framebuffer)
deriving DecidableEq, Repr

/-- What each port returns when called at a state (60_exceptions R240). -/
def reply (p : Port) (s : State) : Reply :=
  match p with
  | .load program programBase fontBase => .result (loadResult program programBase fontBase)
  | .step => .result (stepResult s)
  | .tickTimers => .nothing
  | .framebufferSnapshot => .pixels (framebufferSnapshot s)
  | .setKey _ _ => .nothing
  | .terminate => .nothing

/-- The host's transactions in the order it performs them (20_memory R62); a refused one has no transition and the next one goes on
from the same state (60_exceptions R243). -/
def runPorts : List Port → State → State
  | [], s => s
  | p :: rest, s =>
    match transact p s with
    | .next t => runPorts rest t
    | .fault _ => runPorts rest s
    | .refused _ => runPorts rest s

end Sys2Proof.Machine
end

