-- ==== Sys2Proof/Safety.lean ====
section
/-! DEFINITION. The terms claims use: what an instruction leaves unchanged, the invariants of the block, what explains a fault, and
the opcode map of 30_encoding R75 as numbers. -/

namespace Sys2Proof

open Sys2Proof.Machine

/-- The pieces of `State`. -/
inductive Part where
  | v | i | pc | stack | dt | st | fb | keys | run | fontBase | keyLatch | mem | draws
deriving DecidableEq, Repr

/-- `t` agrees with `s` in every piece of state that is not listed: memory byte by byte, registers and keys one by one. -/
def UnchangedExcept (parts : List Part) (s t : State) : Prop :=
  (Part.v ∈ parts ∨ ∀ r, t.getV r = s.getV r) ∧
  (Part.i ∈ parts ∨ t.i = s.i) ∧
  (Part.pc ∈ parts ∨ t.pc = s.pc) ∧
  (Part.stack ∈ parts ∨ t.stack = s.stack) ∧
  (Part.dt ∈ parts ∨ t.dt = s.dt) ∧
  (Part.st ∈ parts ∨ t.st = s.st) ∧
  (Part.fb ∈ parts ∨ t.fb = s.fb) ∧
  (Part.keys ∈ parts ∨ ∀ k, t.keyFlag k = s.keyFlag k) ∧
  (Part.run ∈ parts ∨ t.run = s.run) ∧
  (Part.fontBase ∈ parts ∨ t.fontBase = s.fontBase) ∧
  (Part.keyLatch ∈ parts ∨ t.keyLatch = s.keyLatch) ∧
  (Part.mem ∈ parts ∨ ∀ a, t.mem.read a = s.mem.read a) ∧
  (Part.draws ∈ parts ∨ t.draws = s.draws)

/-- `t` is `s` with error `e` entered and nothing else changed, PC included (60_exceptions R225, R226). -/
def FaultedFrom (s : State) (e : ErrorKind) (t : State) : Prop :=
  t.run = .faulted e ∧ UnchangedExcept [.run] s t

/-- PC moved to `target`, truncated to 16 bits (00_scope R9). -/
def PcIs (t : State) (target : Nat) : Prop := t.pc.toNat = target % 0x10000

/-- The instruction wrote `V[x]` and moved PC on by 2; nothing else changed. -/
def WritesOneRegister (x : Reg) (b : Byte) (s t : State) : Prop :=
  t.getV x = b ∧ (∀ r, r ≠ x → t.getV r = s.getV r) ∧ PcIs t (s.pc.toNat + 2) ∧ UnchangedExcept [.v, .pc] s t

/-- The instruction wrote its result to `V[x]` and then its flag to VF (41_alu R132): when x is 15 the flag stays. PC moved on by 2;
nothing else changed. -/
def WritesResultThenFlag (x : Reg) (result flag : Byte) (s t : State) : Prop :=
  t.getV 15 = flag ∧ (x ≠ 15 → t.getV x = result) ∧ (∀ r, r ≠ x → r ≠ 15 → t.getV r = s.getV r) ∧
    PcIs t (s.pc.toNat + 2) ∧ UnchangedExcept [.v, .pc] s t

/-- The instruction skipped exactly if the condition holds (40_control_flow R100); nothing but PC changed. -/
def SkipsIf (cond : Prop) (s t : State) : Prop :=
  (cond → PcIs t (s.pc.toNat + 4)) ∧ (¬cond → PcIs t (s.pc.toNat + 2)) ∧ UnchangedExcept [.pc] s t

/-- What every step and every port keeps: memory in its canonical form, the stack within its depth (10_state R27), the font latch
within the reserved range (10_state R32), and a latched key only while waiting (60_exceptions R243). -/
structure StateInv (s : State) : Prop where
  memCanonical : s.mem.wf
  stackBounded : s.stack.length ≤ Config.stackDepth
  fontBelowProgram : s.fontBase.toNat + Config.fontSize ≤ 0x200
  latchOnlyWhileWaiting : s.keyLatch ≠ none → ∃ x, s.run = .awaitingKey x

/-- How many bytes from I up an instruction touches (20_memory R51). -/
def Instr.dataBytes : Instr → Nat
  | .drw _ _ n => n.toNat
  | .ldB _ => 3
  | .ldMemVx x | .ldVxMem x => x.val + 1
  | .cls | .ret | .sys _ | .jp _ | .call _ | .seImm _ _ | .sneImm _ _ | .seReg _ _ | .sneReg _ _ | .ldI _ | .jpV0 _ | .ldImm _ _
  | .addImm _ _ | .ldReg _ _ | .orReg _ _ | .andReg _ _ | .xorReg _ _ | .addReg _ _ | .subReg _ _ | .shr _ _ | .subn _ _
  | .shl _ _ | .rnd _ _ | .skp _ | .sknp _ | .ldVxDt _ | .ldVxK _ | .ldDtVx _ | .ldStVx _ | .addI _ | .ldF _ => 0

/-- A faulted state still shows its cause (60_exceptions R220, R225): PC is at the instruction that raised the error, and the check
that failed fails there. Only the kinds a running step raises occur (60_exceptions R222, R226, R229). -/
def FaultExplained (s : State) : Prop :=
  match s.run with
  | .faulted .notLoaded | .faulted .oversizedProgram | .faulted .invalidBase => False
  | .faulted (.illegalInstruction w) => fetch s = .ok w ∧ decode w = .error (.illegalInstruction w)
  | .faulted .stackUnderflow => s.stack = [] ∧ fetch s = .ok 0x00EE#16
  | .faulted .stackOverflow =>
    s.stack.length = Config.stackDepth ∧ ∃ w nnn, fetch s = .ok w ∧ decode w = .ok (.call nnn)
  | .faulted (.addressError a) =>
    fetch s = .error (.addressError a) ∨
      ∃ w i, fetch s = .ok w ∧ decode w = .ok i ∧ firstBadAddress s.i.toNat i.dataBytes = some a
  | .faulted (.keyIndexError b) =>
    15 < b.toNat ∧ ∃ w x, fetch s = .ok w ∧ (decode w = .ok (.skp x) ∨ decode w = .ok (.sknp x)) ∧ s.getV x = b
  | .unloaded | .running | .awaitingKey _ | .stopped => True

/-- A run is safe while the block is in no faulted state (60_exceptions R226). -/
def Safe (s : State) : Prop := ∀ e, s.run ≠ .faulted e

/-- The general registers an instruction writes when it does not fault: the "writes" column of 10_state R22. -/
def Instr.writesV : Instr → Reg → Bool
  | .ldImm x _, r | .addImm x _, r | .ldReg x _, r | .orReg x _, r | .andReg x _, r | .xorReg x _, r
  | .rnd x _, r | .ldVxDt x, r => r = x
  | .addReg x _, r | .subReg x _, r | .shr x _, r | .subn x _, r | .shl x _, r => r = x ∨ r = Reg.vf
  | .drw _ _ _, r => r = Reg.vf
  | .ldVxMem x, r => r ≤ x
  | .cls, _ | .ret, _ | .sys _, _ | .jp _, _ | .call _, _ | .seImm _ _, _ | .sneImm _ _, _ | .seReg _ _, _ | .sneReg _ _, _
  | .ldI _, _ | .jpV0 _, _ | .skp _, _ | .sknp _, _ | .ldVxK _, _ | .ldDtVx _, _ | .ldStVx _, _ | .addI _, _ | .ldF _, _
  | .ldB _, _ | .ldMemVx _, _ => false

/-- The general registers an instruction reads: the "reads" column of 10_state R22. -/
def Instr.readsV : Instr → Reg → Bool
  | .seImm x _, r | .sneImm x _, r | .addImm x _, r | .skp x, r | .sknp x, r | .ldDtVx x, r | .ldStVx x, r | .addI x, r
  | .ldF x, r | .ldB x, r => r = x
  | .seReg x y, r | .sneReg x y, r | .orReg x y, r | .andReg x y, r | .xorReg x y, r | .addReg x y, r | .subReg x y, r
  | .subn x y, r | .drw x y _, r => r = x ∨ r = y
  | .ldReg _ y, r | .shr _ y, r | .shl _ y, r => r = y
  | .jpV0 _, r => r = Reg.v0
  | .ldMemVx x, r => r ≤ x
  | .cls, _ | .ret, _ | .sys _, _ | .jp _, _ | .call _, _ | .ldImm _ _, _ | .ldI _, _ | .rnd _ _, _ | .ldVxDt _, _ | .ldVxK _, _
  | .ldVxMem _, _ => false

/-- The pieces of state, V apart, that an instruction writes when it does not fault: 10_state R25 (I), R27 (S), R28 (DT, ST), R29
(FB), R31 (run, key_latch), 20_memory R58 (Mem), 30_encoding R86 (PC). `draws` is the model's own. -/
def Instr.writesParts : Instr → List Part
  | .cls => [.v, .pc, .fb]
  | .ret | .call _ => [.v, .pc, .stack]
  | .ldI _ | .addI _ | .ldF _ => [.v, .pc, .i]
  | .rnd _ _ => [.v, .pc, .draws]
  | .drw _ _ _ => [.v, .pc, .fb]
  | .ldVxK _ => [.v, .pc, .run, .keyLatch]
  | .ldDtVx _ => [.v, .pc, .dt]
  | .ldStVx _ => [.v, .pc, .st]
  | .ldB _ | .ldMemVx _ => [.v, .pc, .mem]
  | .sys _ | .jp _ | .seImm _ _ | .sneImm _ _ | .seReg _ _ | .sneReg _ _ | .jpV0 _ | .ldImm _ _ | .addImm _ _ | .ldReg _ _
  | .orReg _ _ | .andReg _ _ | .xorReg _ _ | .addReg _ _ | .subReg _ _ | .shr _ _ | .subn _ _ | .shl _ _ | .skp _ | .sknp _
  | .ldVxDt _ | .ldVxMem _ => [.v, .pc]

/-- A sprite of DXYN has a bit 1 on the pixel at row `r`, column `c` (43_display R182 to R184). -/
def SpriteCovers (s : State) (x y : Reg) (n : BitVec 4) (r : Fin 32) (c : Fin 64) : Prop :=
  ∃ i j, i < n.toNat ∧ j < 8 ∧ r.val = ((s.getV y).toNat + i) % 32 ∧ c.val = ((s.getV x).toNat + j) % 64 ∧
    (s.mem.read (s.i.toNat + i)).getLsbD (7 - j) = true

/-- Is a port call a `load`? -/
def Machine.Port.isLoad : Port → Bool
  | .load _ _ _ => true
  | .step | .tickTimers | .framebufferSnapshot | .setKey _ _ | .terminate => false

/-- The opcode map of 30_encoding R75: match and mask of each row, in the table's order. -/
def opcodeMap : List (Word × Word) := [
  (0x00E0, 0xFFFF), (0x00EE, 0xFFFF), (0x0000, 0xF000), (0x1000, 0xF000), (0x2000, 0xF000), (0x3000, 0xF000), (0x4000, 0xF000),
  (0x5000, 0xF00F), (0x6000, 0xF000), (0x7000, 0xF000), (0x8000, 0xF00F), (0x8001, 0xF00F), (0x8002, 0xF00F), (0x8003, 0xF00F),
  (0x8004, 0xF00F), (0x8005, 0xF00F), (0x8006, 0xF00F), (0x8007, 0xF00F), (0x800E, 0xF00F), (0x9000, 0xF00F), (0xA000, 0xF000),
  (0xB000, 0xF000), (0xC000, 0xF000), (0xD000, 0xF000), (0xE09E, 0xF0FF), (0xE0A1, 0xF0FF), (0xF007, 0xF0FF), (0xF00A, 0xF0FF),
  (0xF015, 0xF0FF), (0xF018, 0xF0FF), (0xF01E, 0xF0FF), (0xF029, 0xF0FF), (0xF033, 0xF0FF), (0xF055, 0xF0FF), (0xF065, 0xF0FF)]

end Sys2Proof
end

