-- ==== Sys2Proof/Certificates/Slice0/Obligations.lean ====
section
/-! DEFINITION. The statements for the provers: what the spec's rules say the block does. Where a rule is the spec's own decision
(marked "[decision: see ...]" there), the docstring names it. -/

open Sys2Proof Sys2Proof.Machine

/-! ### Encoding -/

/-- 30_encoding sections 2 and 3 (R75 to R77): every well-formed instruction, with every operand at every value, decodes from its
word. -/
def Obligations.DecodeOfEncodeIsTheInstruction : Prop :=
  ∀ i : Instr, i.wellFormed = true → decode (encode i) = .ok i

/-- 30_encoding sections 2 and 3: a word that decodes is the word of a well-formed instruction, so no bit of it is dropped. -/
def Obligations.EncodeOfDecodeIsTheWord : Prop :=
  ∀ (w : Word) (i : Instr), decode w = .ok i → i.wellFormed = true ∧ encode i = w

/-- 30_encoding section 3: a word is illegal exactly when no row of the opcode map matches it (w AND mask = match). -/
def Obligations.IllegalWordsMatchNoRow : Prop :=
  ∀ w : Word, decode w = .error (.illegalInstruction w) ↔ ∀ row ∈ opcodeMap, w &&& row.2 ≠ row.1

/-- 30_encoding section 3, the table of illegal words: by family F, last digit N and last two digits NN of the word. -/
def Obligations.IllegalWordsAreTheListedOnes : Prop :=
  ∀ w : Word,
    let f := w.toNat / 0x1000
    let n := w.toNat % 0x10
    let nn := w.toNat % 0x100
    decode w = .error (.illegalInstruction w) ↔
      (f = 0x5 ∧ n ≠ 0) ∨ (f = 0x8 ∧ 8 ≤ n ∧ n ≠ 0xE) ∨ (f = 0x9 ∧ n ≠ 0) ∨ (f = 0xE ∧ nn ∉ [0x9E, 0xA1]) ∨
      (f = 0xF ∧ nn ∉ [0x07, 0x0A, 0x15, 0x18, 0x1E, 0x29, 0x33, 0x55, 0x65])

/-- One word of every row of 30_encoding R75, with operand digits that differ, as its two bytes, high byte first: each decodes to the
instruction of its row, so no two rows can be exchanged. 0NNN is tried beside 00EE, and two words that match no row are illegal. -/
def Obligations.SampleWordsDecode : Prop :=
  decodeBytes 0x00 0xE0 = .ok .cls ∧ decodeBytes 0x00 0xEE = .ok .ret ∧ decodeBytes 0x00 0xEF = .ok (.sys 0x0EF) ∧
  decodeBytes 0x12 0x34 = .ok (.jp 0x234) ∧ decodeBytes 0x2A 0xBC = .ok (.call 0xABC) ∧
  decodeBytes 0x31 0x42 = .ok (.seImm 1 0x42) ∧ decodeBytes 0x41 0x42 = .ok (.sneImm 1 0x42) ∧
  decodeBytes 0x52 0x30 = .ok (.seReg 2 3) ∧ decodeBytes 0x6A 0x9B = .ok (.ldImm 10 0x9B) ∧
  decodeBytes 0x71 0xFF = .ok (.addImm 1 0xFF) ∧ decodeBytes 0x81 0x20 = .ok (.ldReg 1 2) ∧
  decodeBytes 0x81 0x21 = .ok (.orReg 1 2) ∧ decodeBytes 0x81 0x22 = .ok (.andReg 1 2) ∧
  decodeBytes 0x81 0x23 = .ok (.xorReg 1 2) ∧ decodeBytes 0x8F 0x14 = .ok (.addReg 15 1) ∧
  decodeBytes 0x81 0x25 = .ok (.subReg 1 2) ∧ decodeBytes 0x81 0x26 = .ok (.shr 1 2) ∧
  decodeBytes 0x81 0x27 = .ok (.subn 1 2) ∧ decodeBytes 0x81 0x2E = .ok (.shl 1 2) ∧
  decodeBytes 0x92 0x30 = .ok (.sneReg 2 3) ∧ decodeBytes 0xAF 0xFF = .ok (.ldI 0xFFF) ∧
  decodeBytes 0xBF 0x01 = .ok (.jpV0 0xF01) ∧ decodeBytes 0xC3 0x0F = .ok (.rnd 3 0x0F) ∧
  decodeBytes 0xD0 0x12 = .ok (.drw 0 1 2) ∧ decodeBytes 0xE4 0x9E = .ok (.skp 4) ∧ decodeBytes 0xE4 0xA1 = .ok (.sknp 4) ∧
  decodeBytes 0xF1 0x07 = .ok (.ldVxDt 1) ∧ decodeBytes 0xF3 0x0A = .ok (.ldVxK 3) ∧ decodeBytes 0xF2 0x15 = .ok (.ldDtVx 2) ∧
  decodeBytes 0xF3 0x18 = .ok (.ldStVx 3) ∧ decodeBytes 0xF1 0x1E = .ok (.addI 1) ∧ decodeBytes 0xF7 0x29 = .ok (.ldF 7) ∧
  decodeBytes 0xF5 0x33 = .ok (.ldB 5) ∧ decodeBytes 0xF2 0x55 = .ok (.ldMemVx 2) ∧ decodeBytes 0xF2 0x65 = .ok (.ldVxMem 2) ∧
  decodeBytes 0x50 0x01 = .error (.illegalInstruction 0x5001) ∧ decodeBytes 0xFF 0xFF = .error (.illegalInstruction 0xFFFF)

/-! ### The step -/

/-- 30_encoding section 5 (R82, R84): in Running, with both bytes of the word inside memory, a step is the decoded instruction's
meaning on the same state, with nothing around it. The byte at PC is the high byte. That PC may be odd is the spec's decision D14
(20_memory R56), log 14. -/
def Obligations.StepRunsDecodedInstruction : Prop :=
  ∀ (s : State) (i : Instr), s.run = .running → s.pc.toNat + 1 < 0x1000 →
    decodeBytes (s.mem.read s.pc.toNat) (s.mem.read (s.pc.toNat + 1)) = .ok i → step s = exec i s

/-- 30_encoding R84 with 20_memory R53 (the spec's own decision D11, log 6; fault entry D31, log 7): a fetch that leaves memory faults
at its lowest failing address, and PC stays. That an odd PC raises no other error is D14, log 14. -/
def Obligations.FetchOutsideMemoryFaults : Prop :=
  ∀ s : State, s.run = .running → 0xFFF ≤ s.pc.toNat →
    ∃ t, step s = .next t ∧ FaultedFrom s (.addressError (if 0x1000 ≤ s.pc.toNat then s.pc.toNat else 0x1000)) t

/-- 30_encoding R78, with fault entry as the spec decides it (60_exceptions R226, D31, log 7): an illegal word is never a no-op,
at an odd PC either (D14, log 14). -/
def Obligations.IllegalWordFaults : Prop :=
  ∀ (s : State) (w : Word), s.run = .running → s.pc.toNat + 1 < 0x1000 →
    w = concat (s.mem.read s.pc.toNat) (s.mem.read (s.pc.toNat + 1)) → (∀ row ∈ opcodeMap, w &&& row.2 ≠ row.1) →
    ∃ t, step s = .next t ∧ FaultedFrom s (.illegalInstruction w) t ∧ stepResult s = .err (.illegalInstruction w)

/-- 30_encoding R82 (the spec's decisions D30, D31, D33, D34; logs 7, 9): a step changes nothing in Unloaded, Faulted, Stopped, and in
AwaitingKey without a latched key, and tells the host which. -/
def Obligations.QuiescentStepsChangeNothing : Prop :=
  ∀ s : State,
    (s.run = .unloaded → step s = .next s ∧ stepResult s = .err .notLoaded) ∧
    (∀ e, s.run = .faulted e → step s = .next s ∧ stepResult s = .err e) ∧
    (s.run = .stopped → step s = .next s ∧ stepResult s = .stopped) ∧
    (∀ x, s.run = .awaitingKey x → s.keyLatch = none → step s = .next s ∧ stepResult s = .waiting)

/-- 44_keys_timers R205 (the spec's decision D30, log 9): with a latched key the step writes it to V[x] and resumes, PC unchanged. -/
def Obligations.LatchedKeyCompletesTheWait : Prop :=
  ∀ (s : State) (x : Reg) (k : Key), s.run = .awaitingKey x → s.keyLatch = some k →
    ∃ t, step s = .next t ∧ (t.getV x).toNat = k.val ∧ (∀ r, r ≠ x → t.getV r = s.getV r) ∧ t.keyLatch = none ∧
      t.run = .running ∧ UnchangedExcept [.v, .keyLatch, .run] s t ∧ stepResult s = .ok

/-- 60_exceptions section 2 (R223 to R226, the spec's decision D31, log 7): every step of a running block, whatever memory holds,
answers a next state; either it raised an error, tells it, and changed nothing but the run state, or it tells Ok and the block runs
on or waits. -/
def Obligations.EveryErrorIsPrecise : Prop :=
  ∀ s : State, s.run = .running →
    ∃ t, step s = .next t ∧
      ((∃ e, FaultedFrom s e t ∧ stepResult s = .err e) ∨
        (Safe t ∧ stepResult s = .ok ∧ (t.run = .running ∨ ∃ x, t.run = .awaitingKey x)))

/-! ### Reset and invariants -/

/-- 10_state section 10, the construction column (the spec's decision D8 for all but memory, log 1). -/
def Obligations.ResetIsThePowerOnState : Prop :=
  (∀ r, State.reset.getV r = 0) ∧ State.reset.i = 0 ∧ State.reset.pc = 0 ∧ State.reset.stack = [] ∧ State.reset.dt = 0 ∧
  State.reset.st = 0 ∧ (∀ r c, State.reset.fb.pixel r c = false) ∧ (∀ k, State.reset.keyFlag k = false) ∧
  State.reset.run = .unloaded ∧ State.reset.fontBase = 0 ∧ State.reset.keyLatch = none ∧ (∀ a, State.reset.mem.read a = 0)

/-- The invariants hold after construction, whose values but memory's are the spec's decision D8, log 1. -/
def Obligations.ResetMeetsTheInvariants : Prop := StateInv State.reset ∧ FaultExplained State.reset

/-- Every step keeps the invariant, from every state that meets it: memory's canonical form, the stack within its depth, the font
latch below 0x1B1, a latched key only while waiting. The depth is the spec's decision D4 (log 4), the latch's protocol D30 (log 9). -/
def Obligations.StepKeepsTheInvariant : Prop :=
  ∀ s t : State, StateInv s → step s = .next t → StateInv t

/-- Every port keeps the invariant (60_exceptions section 5), `load` with any arguments included. The depth is the spec's decision
D4 (log 4), the latch's protocol D30 (log 9), what load and terminate clear D9 and D34 (logs 1, 16). -/
def Obligations.PortsKeepTheInvariant : Prop :=
  ∀ (p : Port) (s t : State), StateInv s → transact p s = .next t → StateInv t

/-- Every port keeps a faulted block's cause in view (60_exceptions R225, the spec's decision D31, log 7): PC at the instruction that
raised the error, and the check that failed still failing. -/
def Obligations.FaultedStatesStayExplained : Prop :=
  ∀ (p : Port) (s t : State), FaultExplained s → transact p s = .next t → FaultExplained t

/-- Whatever the host does, in whatever order, from construction on (60_exceptions R232, 70_reset R266): the invariants hold. That a
faulted state shows its cause rests on the spec's decision D31, log 7. -/
def Obligations.ReachableStatesMeetTheInvariants : Prop :=
  ∀ ports : List Port, StateInv (runPorts ports State.reset) ∧ FaultExplained (runPorts ports State.reset)

/-- 20_memory R50 and the model's canonical form: two memories with the same bytes are the same data. -/
def Obligations.SameBytesSameMemory : Prop :=
  ∀ m n : Memory, m.wf → n.wf → (∀ a, m.read a = n.read a) → m = n

/-! ### Whole-machine rules -/

/-- 20_memory R58: memory is written only by `load`, FX33 and FX55, by an instruction, by a port, and by a step in any run state, one
that faults in its fetch or its decoding included; DXYN writes only the framebuffer and VF (and PC), or faults. That a fault is a next
state with the run state alone changed, so that a faulting step writes no memory, is the spec's decision D31, log 7. -/
def Obligations.OnlyLoadAndBlockStoresWriteMemory : Prop :=
  (∀ (i : Instr) (s t : State), exec i s = .next t → (∀ x, i ≠ .ldB x) → (∀ x, i ≠ .ldMemVx x) →
    ∀ a, t.mem.read a = s.mem.read a) ∧
  (∀ (p : Port) (s t : State), p.isLoad = false → p ≠ .step → transact p s = .next t → ∀ a, t.mem.read a = s.mem.read a) ∧
  (∀ s t : State, step s = .next t →
    (∀ a, t.mem.read a = s.mem.read a) ∨
      (s.run = .running ∧ ∃ w x, fetch s = .ok w ∧ (decode w = .ok (.ldB x) ∨ decode w = .ok (.ldMemVx x)))) ∧
  (∀ (x y : Reg) (n : BitVec 4) (s t : State), exec (.drw x y n) s = .next t →
    (∃ e, FaultedFrom s e t) ∨ (UnchangedExcept [.fb, .v, .pc] s t ∧ ∀ r, r ≠ 15 → t.getV r = s.getV r))

/-- The frame of all 35 instructions: each either faults, changing nothing but the run state, or changes only the pieces of state and
only the V registers that the spec's tables give it (10_state sections 1 to 8, `Instr.writesParts`, `Instr.writesV`); and of memory no
byte but the `Instr.dataBytes` from I up (42_index_memory R164, R165). Logic without VF, FX1E without VF, and FX55 and FX65 without I
are the spec's decisions D22, D24 and D26, log 13; the fault is D31, log 7. -/
def Obligations.InstructionsWriteOnlyTheirParts : Prop :=
  ∀ (i : Instr) (s t : State), exec i s = .next t →
    (∃ e, FaultedFrom s e t) ∨
      (UnchangedExcept i.writesParts s t ∧ (∀ r, i.writesV r = false → t.getV r = s.getV r) ∧
        ∀ a, a < s.i.toNat ∨ s.i.toNat + i.dataBytes ≤ a → t.mem.read a = s.mem.read a)

/-- 10_state section 1, the "reads" column: an instruction behaves the same whatever a register outside its reads holds, apart from
that register itself; and a register it writes but does not read ends the same unless it faults. That the shifts read VY alone is the
spec's decision D7, log 11; that a fault keeps the register is D31, log 7. -/
def Obligations.InstructionsReadOnlyTheirRegisters : Prop :=
  ∀ (i : Instr) (s : State) (r : Reg) (b : Byte), i.readsV r = false →
    ∃ t t', exec i s = .next t ∧ exec i (s.setV r b) = .next t' ∧ t'.setV r 0 = t.setV r 0 ∧
      (i.writesV r = true → (∃ e, FaultedFrom s e t) ∨ t' = t)

/-- 10_state section 5 and 60_exceptions section 6: no step reads the sound timer, so its value changes nothing a step does or tells
but the sound timer. -/
def Obligations.SoundTimerIsNeverRead : Prop :=
  ∀ (s : State) (b : Byte), ∃ t t', step s = .next t ∧ step (s.setSt b) = .next t' ∧ t'.setSt 0 = t.setSt 0 ∧
    stepResult (s.setSt b) = stepResult s

/-! ### 8-bit ALU -/

/-- 41_alu R133. -/
def Obligations.LoadImmediateSetsVx : Prop :=
  ∀ (x : Reg) (nn : Byte), encode (.ldImm x nn) = BitVec.ofNat 16 (0x6000 + 0x100 * x.val + nn.toNat) ∧
    ∀ s, ∃ t, exec (.ldImm x nn) s = .next t ∧ WritesOneRegister x nn s t

/-- 41_alu R134: no flag, no carry. -/
def Obligations.AddImmediateWrapsWithoutFlag : Prop :=
  ∀ (x : Reg) (nn : Byte), encode (.addImm x nn) = BitVec.ofNat 16 (0x7000 + 0x100 * x.val + nn.toNat) ∧
    ∀ s, ∃ t, exec (.addImm x nn) s = .next t ∧
      WritesOneRegister x (BitVec.ofNat 8 (((s.getV x).toNat + nn.toNat) % 256)) s t

/-- 41_alu R135. -/
def Obligations.LoadRegisterCopiesVy : Prop :=
  ∀ x y : Reg, encode (.ldReg x y) = BitVec.ofNat 16 (0x8000 + 0x100 * x.val + 0x10 * y.val) ∧
    ∀ s, ∃ t, exec (.ldReg x y) s = .next t ∧ WritesOneRegister x (s.getV y) s t

/-- 41_alu section 2 (R136 to R138), bit by bit. That VF is not written is the spec's decision D22, log 13. -/
def Obligations.LogicIsBitwiseWithoutFlag : Prop :=
  ∀ (x y : Reg) (s : State),
    encode (.orReg x y) = BitVec.ofNat 16 (0x8001 + 0x100 * x.val + 0x10 * y.val) ∧
    encode (.andReg x y) = BitVec.ofNat 16 (0x8002 + 0x100 * x.val + 0x10 * y.val) ∧
    encode (.xorReg x y) = BitVec.ofNat 16 (0x8003 + 0x100 * x.val + 0x10 * y.val) ∧
    (∃ t b, exec (.orReg x y) s = .next t ∧ WritesOneRegister x b s t ∧
      ∀ k, b.getLsbD k = ((s.getV x).getLsbD k || (s.getV y).getLsbD k)) ∧
    (∃ t b, exec (.andReg x y) s = .next t ∧ WritesOneRegister x b s t ∧
      ∀ k, b.getLsbD k = ((s.getV x).getLsbD k && (s.getV y).getLsbD k)) ∧
    (∃ t b, exec (.xorReg x y) s = .next t ∧ WritesOneRegister x b s t ∧
      ∀ k, b.getLsbD k = ((s.getV x).getLsbD k ^^ (s.getV y).getLsbD k))

/-- 41_alu section 3 (R140): the exact sum, its result modulo 256, and the carry. That the carry is written last, so that VF holds it
when X = 15, is the spec's decision D6 (R131, R132), log 10. -/
def Obligations.AddRegisterSetsCarry : Prop :=
  ∀ x y : Reg, encode (.addReg x y) = BitVec.ofNat 16 (0x8004 + 0x100 * x.val + 0x10 * y.val) ∧
    ∀ s, ∃ t, exec (.addReg x y) s = .next t ∧
      WritesResultThenFlag x (BitVec.ofNat 8 (((s.getV x).toNat + (s.getV y).toNat) % 256))
        (if (s.getV x).toNat + (s.getV y).toNat > 255 then 1 else 0) s t

/-- 41_alu section 3 (R141, R143): the exact difference modulo 256, and no-borrow. That the flag is written last, so that VF holds it
when X = 15, is the spec's decision D6 (R131, R132), log 10. -/
def Obligations.SubtractionsSetNoBorrow : Prop :=
  ∀ x y : Reg,
    (encode (.subReg x y) = BitVec.ofNat 16 (0x8005 + 0x100 * x.val + 0x10 * y.val) ∧
      ∀ s, ∃ t, exec (.subReg x y) s = .next t ∧
        WritesResultThenFlag x (BitVec.ofInt 8 (((s.getV x).toNat : Int) - (s.getV y).toNat))
          (if (s.getV x).toNat ≥ (s.getV y).toNat then 1 else 0) s t) ∧
    (encode (.subn x y) = BitVec.ofNat 16 (0x8007 + 0x100 * x.val + 0x10 * y.val) ∧
      ∀ s, ∃ t, exec (.subn x y) s = .next t ∧
        WritesResultThenFlag x (BitVec.ofInt 8 (((s.getV y).toNat : Int) - (s.getV x).toNat))
          (if (s.getV y).toNat ≥ (s.getV x).toNat then 1 else 0) s t)

/-- 41_alu section 3 (R142, R144) and section 5 (R146): the source VY is the spec's decision D7, log 11, the flag last D6,
log 10. -/
def Obligations.ShiftsOfVySetTheBitOut : Prop :=
  ∀ (x y : Reg) (s : State),
    encode (.shr x y) = BitVec.ofNat 16 (0x8006 + 0x100 * x.val + 0x10 * y.val) ∧
    encode (.shl x y) = BitVec.ofNat 16 (0x800E + 0x100 * x.val + 0x10 * y.val) ∧
    (∃ t, exec (.shr x y) s = .next t ∧
      WritesResultThenFlag x (BitVec.ofNat 8 ((s.getV y).toNat / 2)) (BitVec.ofNat 8 ((s.getV y).toNat % 2)) s t) ∧
    (∃ t, exec (.shl x y) s = .next t ∧
      WritesResultThenFlag x (BitVec.ofNat 8 (2 * (s.getV y).toNat % 256)) (BitVec.ofNat 8 ((s.getV y).toNat / 128)) s t)

/-- 41_alu section 4 (R145): the next byte of the random input, whatever it is (free value, log 3; the spec's decision D23), masked; no
bit is set that NN lacks; and the draw is used up. -/
def Obligations.RandomByteIsMasked : Prop :=
  ∀ (x : Reg) (nn : Byte) (s : State), encode (.rnd x nn) = BitVec.ofNat 16 (0xC000 + 0x100 * x.val + nn.toNat) ∧
    ∃ t, exec (.rnd x nn) s = .next t ∧ (∀ k, (t.getV x).getLsbD k = ((Config.randomByte s.draws).getLsbD k && nn.getLsbD k)) ∧
    (∀ r, r ≠ x → t.getV r = s.getV r) ∧ PcIs t (s.pc.toNat + 2) ∧ t.draws = s.draws + 1 ∧
    UnchangedExcept [.v, .pc, .draws] s t

/-! ### Control transfer -/

/-- 40_control_flow R103. -/
def Obligations.JumpGoesToNnn : Prop :=
  ∀ nnn : Addr, encode (.jp nnn) = BitVec.ofNat 16 (0x1000 + nnn.toNat) ∧
    ∀ s, ∃ t, exec (.jp nnn) s = .next t ∧ t.pc.toNat = nnn.toNat ∧ UnchangedExcept [.pc] s t

/-- 40_control_flow sections 2 and 4 (R102, R109): 0NNN jumps and pushes nothing, 0x0000 included (the spec's decision D21); BNNN adds
V0 without a 12-bit mask (D20); log 14. -/
def Obligations.SysAndComputedJumpTargets : Prop :=
  ∀ (nnn : Addr) (s : State),
    encode (.sys nnn) = BitVec.ofNat 16 nnn.toNat ∧ encode (.jpV0 nnn) = BitVec.ofNat 16 (0xB000 + nnn.toNat) ∧
    (∃ t, exec (.sys nnn) s = .next t ∧ t.pc.toNat = nnn.toNat ∧ UnchangedExcept [.pc] s t) ∧
    (∃ t, exec (.jpV0 nnn) s = .next t ∧ t.pc.toNat = nnn.toNat + (s.getV 0).toNat ∧ UnchangedExcept [.pc] s t)

/-- 40_control_flow section 2 (R104): the return address is the spec's decision D19 (log 14), the depth D4 (log 4), the fault
D31 (log 7). -/
def Obligations.CallPushesOrOverflows : Prop :=
  ∀ (nnn : Addr) (s : State), encode (.call nnn) = BitVec.ofNat 16 (0x2000 + nnn.toNat) ∧
    (s.stack.length < Config.stackDepth →
      ∃ t, exec (.call nnn) s = .next t ∧ t.stack = BitVec.ofNat 16 (s.pc.toNat + 2) :: s.stack ∧ t.pc.toNat = nnn.toNat ∧
        UnchangedExcept [.pc, .stack] s t) ∧
    (s.stack.length = Config.stackDepth → ∃ t, exec (.call nnn) s = .next t ∧ FaultedFrom s .stackOverflow t)

/-- 40_control_flow section 1 (R101): the popped address is used as it is. That the fault is a next state with the run state alone
changed is log 7 (60_exceptions R226, the spec's decision D31). -/
def Obligations.ReturnPopsOrUnderflows : Prop :=
  encode .ret = 0x00EE ∧ ∀ s : State,
    (∀ a rest, s.stack = a :: rest →
      ∃ t, exec .ret s = .next t ∧ t.pc = a ∧ t.stack = rest ∧ UnchangedExcept [.pc, .stack] s t) ∧
    (s.stack = [] → ∃ t, exec .ret s = .next t ∧ FaultedFrom s .stackUnderflow t)

/-- 40_control_flow R105 and R106. -/
def Obligations.ImmediateSkips : Prop :=
  ∀ (x : Reg) (nn : Byte),
    encode (.seImm x nn) = BitVec.ofNat 16 (0x3000 + 0x100 * x.val + nn.toNat) ∧
    encode (.sneImm x nn) = BitVec.ofNat 16 (0x4000 + 0x100 * x.val + nn.toNat) ∧
    ∀ s, (∃ t, exec (.seImm x nn) s = .next t ∧ SkipsIf (s.getV x = nn) s t) ∧
      (∃ t, exec (.sneImm x nn) s = .next t ∧ SkipsIf (s.getV x ≠ nn) s t)

/-- 40_control_flow R107 and R108, with the illegal words they name. -/
def Obligations.RegisterSkips : Prop :=
  ∀ x y : Reg,
    encode (.seReg x y) = BitVec.ofNat 16 (0x5000 + 0x100 * x.val + 0x10 * y.val) ∧
    encode (.sneReg x y) = BitVec.ofNat 16 (0x9000 + 0x100 * x.val + 0x10 * y.val) ∧
    (∀ n : Nat, 0 < n → n < 16 → ∀ f ∈ [0x5000, 0x9000],
      decode (BitVec.ofNat 16 (f + 0x100 * x.val + 0x10 * y.val + n)) =
        .error (.illegalInstruction (BitVec.ofNat 16 (f + 0x100 * x.val + 0x10 * y.val + n)))) ∧
    ∀ s, (∃ t, exec (.seReg x y) s = .next t ∧ SkipsIf (s.getV x = s.getV y) s t) ∧
      (∃ t, exec (.sneReg x y) s = .next t ∧ SkipsIf (s.getV x ≠ s.getV y) s t)

/-- 40_control_flow section 5 (R110), on the machine: a running block that calls a routine whose first instruction is 00EE is back at
the instruction after the call in two steps, with only PC changed. The return address is the spec's decision D19, odd addresses D14,
log 14; the depth D4, log 4. -/
def Obligations.CallThenReturnComesBack : Prop :=
  ∀ (s : State) (nnn : Addr), s.run = .running → s.pc.toNat + 1 < 0x1000 → nnn.toNat + 1 < 0x1000 →
    decodeBytes (s.mem.read s.pc.toNat) (s.mem.read (s.pc.toNat + 1)) = .ok (.call nnn) →
    concat (s.mem.read nnn.toNat) (s.mem.read (nnn.toNat + 1)) = 0x00EE → s.stack.length < Config.stackDepth →
    ∃ t u, step s = .next t ∧ t.pc.toNat = nnn.toNat ∧ t.stack.length = s.stack.length + 1 ∧ step t = .next u ∧
      PcIs u (s.pc.toNat + 2) ∧ UnchangedExcept [.pc] s u

/-! ### Index register and memory -/

/-- 42_index_memory R161. -/
def Obligations.LoadIndexSetsI : Prop :=
  ∀ nnn : Addr, encode (.ldI nnn) = BitVec.ofNat 16 (0xA000 + nnn.toNat) ∧
    ∀ s, ∃ t, exec (.ldI nnn) s = .next t ∧ t.i.toNat = nnn.toNat ∧ PcIs t (s.pc.toNat + 2) ∧ UnchangedExcept [.i, .pc] s t

/-- 42_index_memory section 1 (R162, R163): no flag and no 12-bit wrap (the spec's decision D24), V[X] not masked to a digit (D25);
log 13. -/
def Obligations.AddIndexAndFontGlyph : Prop :=
  ∀ (x : Reg) (s : State),
    encode (.addI x) = BitVec.ofNat 16 (0xF01E + 0x100 * x.val) ∧ encode (.ldF x) = BitVec.ofNat 16 (0xF029 + 0x100 * x.val) ∧
    (∃ t, exec (.addI x) s = .next t ∧ t.i.toNat = (s.i.toNat + (s.getV x).toNat) % 65536 ∧ PcIs t (s.pc.toNat + 2) ∧
      UnchangedExcept [.i, .pc] s t) ∧
    (∃ t, exec (.ldF x) s = .next t ∧ t.i.toNat = (s.fontBase.toNat + 5 * (s.getV x).toNat) % 65536 ∧
      PcIs t (s.pc.toNat + 2) ∧ UnchangedExcept [.i, .pc] s t)

/-- 42_index_memory section 2 (R164): the digits at I, I + 1, I + 2 and every other byte as before, or a fault at the lowest address
outside memory with nothing written. The fault's address and the check before any write are the spec's decisions D11 and D12, log 6;
that the fault is a next state is D31, log 7. -/
def Obligations.BcdStoresThreeDigits : Prop :=
  ∀ x : Reg, encode (.ldB x) = BitVec.ofNat 16 (0xF033 + 0x100 * x.val) ∧
    ∀ s : State,
      (s.i.toNat + 2 < 0x1000 →
        ∃ t, exec (.ldB x) s = .next t ∧
          (t.mem.read s.i.toNat).toNat = (s.getV x).toNat / 100 ∧
          (t.mem.read (s.i.toNat + 1)).toNat = (s.getV x).toNat / 10 % 10 ∧
          (t.mem.read (s.i.toNat + 2)).toNat = (s.getV x).toNat % 10 ∧
          (∀ a, a < s.i.toNat ∨ s.i.toNat + 2 < a → t.mem.read a = s.mem.read a) ∧
          PcIs t (s.pc.toNat + 2) ∧ UnchangedExcept [.mem, .pc] s t) ∧
      (0x1000 ≤ s.i.toNat + 2 →
        ∃ t, exec (.ldB x) s = .next t ∧
          FaultedFrom s (.addressError (if 0x1000 ≤ s.i.toNat then s.i.toNat else 0x1000)) t)

/-- 42_index_memory section 2 (R165): V0 to VX at I to I + X and every other byte as before, or a fault with nothing written. That I is
unchanged is the spec's decision D26, log 13; the fault is D11, D12 and D31, logs 6 and 7. -/
def Obligations.BlockStoreWritesV0ToVx : Prop :=
  ∀ (x : Reg) (s : State), encode (.ldMemVx x) = BitVec.ofNat 16 (0xF055 + 0x100 * x.val) ∧
    (s.i.toNat + x.val < 0x1000 →
      ∃ t, exec (.ldMemVx x) s = .next t ∧
        (∀ k : Reg, k ≤ x → t.mem.read (s.i.toNat + k.val) = s.getV k) ∧
        (∀ a, a < s.i.toNat ∨ s.i.toNat + x.val < a → t.mem.read a = s.mem.read a) ∧
        PcIs t (s.pc.toNat + 2) ∧ UnchangedExcept [.mem, .pc] s t) ∧
    (0x1000 ≤ s.i.toNat + x.val →
      ∃ t, exec (.ldMemVx x) s = .next t ∧
        FaultedFrom s (.addressError (if 0x1000 ≤ s.i.toNat then s.i.toNat else 0x1000)) t)

/-- 42_index_memory section 2 (R166): V0 to VX from I to I + X and every other register as before, or a fault with no register written.
That I is unchanged is the spec's decision D26, log 13; the fault is D11, D12 and D31, logs 6 and 7. -/
def Obligations.BlockLoadReadsV0ToVx : Prop :=
  ∀ (x : Reg) (s : State), encode (.ldVxMem x) = BitVec.ofNat 16 (0xF065 + 0x100 * x.val) ∧
    (s.i.toNat + x.val < 0x1000 →
      ∃ t, exec (.ldVxMem x) s = .next t ∧
        (∀ k : Reg, k ≤ x → t.getV k = s.mem.read (s.i.toNat + k.val)) ∧ (∀ k : Reg, x < k → t.getV k = s.getV k) ∧
        PcIs t (s.pc.toNat + 2) ∧ UnchangedExcept [.v, .pc] s t) ∧
    (0x1000 ≤ s.i.toNat + x.val →
      ∃ t, exec (.ldVxMem x) s = .next t ∧
        FaultedFrom s (.addressError (if 0x1000 ≤ s.i.toNat then s.i.toNat else 0x1000)) t)

/-- 42_index_memory section 2 (R167): a block store and a block load with the same X and I leave every register as it was and memory
equal to V0 to VX. -/
def Obligations.StoreThenLoadRoundTrip : Prop :=
  ∀ (x : Reg) (s : State), s.i.toNat + x.val < 0x1000 →
    ∃ t u, exec (.ldMemVx x) s = .next t ∧ exec (.ldVxMem x) t = .next u ∧ (∀ k, u.getV k = s.getV k) ∧
      (∀ k : Reg, k ≤ x → u.mem.read (s.i.toNat + k.val) = s.getV k) ∧ u.i = s.i

/-- 20_memory section 7 (R64) and 70_reset section 4 (R271): bytes a block store put at the next PC are the next word fetched. That a
store is seen by the next fetch is the spec's decision D16, log 16, at an odd PC D14, log 14. -/
def Obligations.StoredCodeIsFetchedNext : Prop :=
  ∀ (x k l : Reg) (s : State), s.i.toNat + x.val < 0x1000 → l.val = k.val + 1 → l ≤ x →
    s.pc.toNat + 2 = s.i.toNat + k.val →
    ∃ t, exec (.ldMemVx x) s = .next t ∧ fetch t = .ok (concat (s.getV k) (s.getV l))

/-! ### Display -/

/-- 43_display R181. -/
def Obligations.ClearBlanksTheFramebuffer : Prop :=
  encode .cls = 0x00E0 ∧ ∀ s : State, ∃ t, exec .cls s = .next t ∧ (∀ r c, t.fb.pixel r c = false) ∧
    PcIs t (s.pc.toNat + 2) ∧ UnchangedExcept [.fb, .pc] s t

/-- 43_display section 2 (R182 to R187): a pixel flips exactly where the wrapped sprite has a bit 1, and VF says whether one of them was
1; for N = 0 nothing is read; a sprite that leaves memory faults. The bit order is the spec's decision D27 (log 12), the flag last D6
(log 10), the fault D11, D12 and D31 (logs 6, 7). -/
def Obligations.DrawFlipsTheCoveredPixels : Prop :=
  ∀ (x y : Reg) (n : BitVec 4) (s : State),
    encode (.drw x y n) = BitVec.ofNat 16 (0xD000 + 0x100 * x.val + 0x10 * y.val + n.toNat) ∧
    (n = 0 ∨ s.i.toNat + n.toNat ≤ 0x1000 →
      ∃ t, exec (.drw x y n) s = .next t ∧
        (∀ r c, SpriteCovers s x y n r c → t.fb.pixel r c = !s.fb.pixel r c) ∧
        (∀ r c, ¬SpriteCovers s x y n r c → t.fb.pixel r c = s.fb.pixel r c) ∧
        ((∃ r c, SpriteCovers s x y n r c ∧ s.fb.pixel r c = true) → t.getV 15 = 1) ∧
        ((∀ r c, SpriteCovers s x y n r c → s.fb.pixel r c = false) → t.getV 15 = 0) ∧
        (∀ r, r ≠ 15 → t.getV r = s.getV r) ∧ PcIs t (s.pc.toNat + 2) ∧ UnchangedExcept [.fb, .v, .pc] s t) ∧
    (n ≠ 0 → 0x1000 < s.i.toNat + n.toNat →
      ∃ t, exec (.drw x y n) s = .next t ∧
        FaultedFrom s (.addressError (if 0x1000 ≤ s.i.toNat then s.i.toNat else 0x1000)) t)

/-- 43_display section 2 (R189): the same sprite drawn twice from the same origin leaves the framebuffer as it was, and the second draw
collides exactly if the sprite has a bit 1 on a pixel that was 0. -/
def Obligations.DrawingTwiceRestoresTheFramebuffer : Prop :=
  ∀ (x y : Reg) (n : BitVec 4) (s t : State), n = 0 ∨ s.i.toNat + n.toNat ≤ 0x1000 → exec (.drw x y n) s = .next t →
    t.getV x = s.getV x → t.getV y = s.getV y →
    ∃ u, exec (.drw x y n) t = .next u ∧ u.fb = s.fb ∧
      (u.getV 15 = 1 ↔ ∃ r c, SpriteCovers s x y n r c ∧ s.fb.pixel r c = false) ∧ (u.getV 15 = 0 ∨ u.getV 15 = 1)

/-! ### Keys and timers -/

/-- 44_keys_timers section 1 (R200 to R202): the skip on the key flag and its opposite, for every key; the fault for a value that names
no key is the spec's decision D29, log 8, its entry D31, log 7. -/
def Obligations.KeySkipsFollowTheFlag : Prop :=
  ∀ (x : Reg) (s : State),
    encode (.skp x) = BitVec.ofNat 16 (0xE09E + 0x100 * x.val) ∧ encode (.sknp x) = BitVec.ofNat 16 (0xE0A1 + 0x100 * x.val) ∧
    (∀ k : Key, (s.getV x).toNat = k.val →
      (∃ t, exec (.skp x) s = .next t ∧ SkipsIf (s.keyFlag k = true) s t) ∧
      (∃ t, exec (.sknp x) s = .next t ∧ SkipsIf (s.keyFlag k = false) s t)) ∧
    (15 < (s.getV x).toNat →
      (∃ t, exec (.skp x) s = .next t ∧ FaultedFrom s (.keyIndexError (s.getV x)) t) ∧
      (∃ t, exec (.sknp x) s = .next t ∧ FaultedFrom s (.keyIndexError (s.getV x)) t))

/-- 44_keys_timers R203, R206 and R207. -/
def Obligations.TimerInstructionsMoveTheValue : Prop :=
  ∀ x : Reg,
    (encode (.ldVxDt x) = BitVec.ofNat 16 (0xF007 + 0x100 * x.val) ∧
      ∀ s, ∃ t, exec (.ldVxDt x) s = .next t ∧ WritesOneRegister x s.dt s t) ∧
    (encode (.ldDtVx x) = BitVec.ofNat 16 (0xF015 + 0x100 * x.val) ∧
      ∀ s, ∃ t, exec (.ldDtVx x) s = .next t ∧ t.dt = s.getV x ∧ PcIs t (s.pc.toNat + 2) ∧ UnchangedExcept [.dt, .pc] s t) ∧
    (encode (.ldStVx x) = BitVec.ofNat 16 (0xF018 + 0x100 * x.val) ∧
      ∀ s, ∃ t, exec (.ldStVx x) s = .next t ∧ t.st = s.getV x ∧ PcIs t (s.pc.toNat + 2) ∧ UnchangedExcept [.st, .pc] s t)

/-- 44_keys_timers section 3 (R204, the spec's decision D30, log 9): PC moves on, the block waits for a new press, no register is
written. -/
def Obligations.KeyWaitBegins : Prop :=
  ∀ (x : Reg) (s : State), encode (.ldVxK x) = BitVec.ofNat 16 (0xF00A + 0x100 * x.val) ∧
    ∃ t, exec (.ldVxK x) s = .next t ∧ t.run = .awaitingKey x ∧ t.keyLatch = none ∧
    PcIs t (s.pc.toNat + 2) ∧ UnchangedExcept [.run, .keyLatch, .pc] s t

/-- 44_keys_timers section 3 and 90_conflicts C6 (the spec's decision D30, log 9): while the block waits with no key latched, steps,
ticks, snapshots and further press reports of keys already held, in any number and order, leave it waiting and change nothing but the
timers, which a tick moves in this run state too (D35, log 16). -/
def Obligations.HeldKeysDoNotEndTheWait : Prop :=
  ∀ (ports : List Port) (s : State) (x : Reg), s.run = .awaitingKey x → s.keyLatch = none →
    (∀ p ∈ ports, p = .step ∨ p = .tickTimers ∨ p = .framebufferSnapshot ∨ ∃ k : Key, p = .setKey k.val true ∧ s.keyFlag k = true) →
    (runPorts ports s).run = .awaitingKey x ∧ (runPorts ports s).keyLatch = none ∧
      UnchangedExcept [.dt, .st] s (runPorts ports s)

/-! ### Host ports -/

/-- 60_exceptions section 6 (R245), n ticks: both timers count down to 0 and stay there, in every run state (the spec's decision D35,
log 16). -/
def Obligations.TicksCountBothTimersDown : Prop :=
  ∀ (n : Nat) (s : State),
    ((runPorts (List.replicate n .tickTimers) s).dt.toNat = s.dt.toNat - n) ∧
    ((runPorts (List.replicate n .tickTimers) s).st.toNat = s.st.toNat - n) ∧
    UnchangedExcept [.dt, .st] s (runPorts (List.replicate n .tickTimers) s)

/-- 60_exceptions section 5 (R243; the spec's decisions D30, D37; logs 9, 16): the flag is written in every run state; the key is
latched exactly if the block waits, the press is new and none is latched; an index above 15 is refused. -/
def Obligations.SetKeyWritesTheFlagAndLatches : Prop :=
  (∀ (k : Key) (pressed : Bool) (s : State), ∃ t, transact (.setKey k.val pressed) s = .next t ∧ t.keyFlag k = pressed ∧
    (∀ j, j ≠ k → t.keyFlag j = s.keyFlag j) ∧
    ((∃ x, s.run = .awaitingKey x) ∧ pressed = true ∧ s.keyFlag k = false ∧ s.keyLatch = none → t.keyLatch = some k) ∧
    (¬((∃ x, s.run = .awaitingKey x) ∧ pressed = true ∧ s.keyFlag k = false ∧ s.keyLatch = none) → t.keyLatch = s.keyLatch) ∧
    UnchangedExcept [.keys, .keyLatch] s t) ∧
  (∀ (k : Nat) (pressed : Bool) (s : State), 15 < k → transact (.setKey k pressed) s = .refused (.keyOutsidePort k))

/-- 60_exceptions section 7 (R248, the spec's decision D34, log 16). -/
def Obligations.TerminateStopsCleanly : Prop :=
  ∀ s : State, ∃ t, transact .terminate s = .next t ∧
    (s.run = .running ∨ (∃ x, s.run = .awaitingKey x) →
      t.run = .stopped ∧ t.keyLatch = none ∧ UnchangedExcept [.run, .keyLatch] s t) ∧
    (s.run = .unloaded ∨ (∃ e, s.run = .faulted e) ∨ s.run = .stopped → t = s)

/-- 60_exceptions R244. -/
def Obligations.SnapshotCopiesTheFramebuffer : Prop :=
  ∀ s : State, transact .framebufferSnapshot s = .next s ∧ reply .framebufferSnapshot s = .pixels s.fb

/-- 70_reset section 2 (R262 to R264): a load that meets the preconditions, with any font table. What it re-initialises beside memory,
PC and the loaded mark is the spec's decision D9, log 1. -/
def Obligations.LoadReinitialisesTheBlock : Prop :=
  ∀ (font : Font) (program : List Byte) (programBase fontBase : Nat) (s : State),
    0x200 ≤ programBase → fontBase + 80 ≤ 0x200 → programBase + program.length ≤ 4096 →
    ∃ t, loadWith font program programBase fontBase s = t ∧ loadResult program programBase fontBase = .ok ∧
      (∀ k : Nat, (h : k < program.length) → t.mem.read (programBase + k) = program[k]) ∧
      (∀ k : Nat, (h : k < 80) → t.mem.read (fontBase + k) = font[k]) ∧
      (∀ a : Nat, (a < programBase ∨ programBase + program.length ≤ a) → (a < fontBase ∨ fontBase + 80 ≤ a) → t.mem.read a = 0) ∧
      t.pc.toNat = programBase ∧ t.fontBase.toNat = fontBase ∧ (∀ r, t.getV r = 0) ∧ t.i = 0 ∧ t.stack = [] ∧ t.dt = 0 ∧
      t.st = 0 ∧ (∀ r c, t.fb.pixel r c = false) ∧ t.keyLatch = none ∧ t.run = .running ∧ (∀ k, t.keyFlag k = s.keyFlag k)

/-- 70_reset section 2 (R263, the spec's decision D10, log 16): InvalidBase is checked first, and a failed load changes nothing. -/
def Obligations.FailedLoadChangesNothing : Prop :=
  ∀ (program : List Byte) (programBase fontBase : Nat) (s : State),
    (programBase < 0x200 ∨ fontBase + 80 > 0x200 →
      transact (.load program programBase fontBase) s = .next s ∧
        reply (.load program programBase fontBase) s = .result (.err .invalidBase)) ∧
    (0x200 ≤ programBase → fontBase + 80 ≤ 0x200 → programBase + program.length > 4096 →
      transact (.load program programBase fontBase) s = .next s ∧
        reply (.load program programBase fontBase) s = .result (.err .oversizedProgram))

/-- 70_reset sections 2 and 3 (R264 to R266): from any state, after a load of a program of at least two bytes the next step performs the
instruction of its first two bytes, high byte first, at PC = program_base. An odd program_base is the spec's
decision D14, log 14. -/
def Obligations.LoadThenStepRunsTheFirstInstruction : Prop :=
  ∀ (b0 b1 : Byte) (rest : List Byte) (programBase fontBase : Nat) (s : State) (i : Instr),
    0x200 ≤ programBase → fontBase + 80 ≤ 0x200 → programBase + (rest.length + 2) ≤ 4096 → decodeBytes b0 b1 = .ok i →
    ∃ t, transact (.load (b0 :: b1 :: rest) programBase fontBase) s = .next t ∧ t.pc.toNat = programBase ∧ step t = exec i t

/-- 60_exceptions sections 2 and 7 (R226 to R228, R249; the spec's decisions D9, D31, D34; logs 7, 16): while the host performs no
`load`, a faulted block stays faulted with the same error and a stopped one stays stopped. -/
def Obligations.OnlyLoadLeavesFaultedOrStopped : Prop :=
  ∀ (ports : List Port) (s : State), (∀ p ∈ ports, p.isLoad = false) →
    (∀ e, s.run = .faulted e → (runPorts ports s).run = .faulted e) ∧ (s.run = .stopped → (runPorts ports s).run = .stopped)
end

