-- ==== Sys2Proof/Laws/Memory.lean ====
section
/-! SUPPORT. What the memory operations do: read after write, the canonical form, blocks, and the range check. -/

namespace Sys2Proof.Machine

/-! ### Read after write -/

@[simp] theorem Memory.read_nil (a : Nat) : Memory.read [] a = Memory.unlisted := rfl

theorem Memory.read_cons (c : Host.Cell) (m : Memory) (a : Nat) :
    Memory.read (c :: m) a = if c.1 = a then c.2 else Memory.read m a := rfl

theorem Memory.read_unlisted (m : Memory) (a : Nat) (h : ∀ c ∈ m, c.1 ≠ a) : m.read a = Memory.unlisted := by
  induction m with
  | nil => rfl
  | cons c m ih =>
    rw [Memory.read_cons, if_neg (h c (by simp))]
    exact ih (fun d hd => h d (by simp [hd]))

theorem Memory.read_insert_same (m : Memory) (a : Nat) (b : Byte) (h : ∀ c ∈ m, c.1 ≠ a) :
    (m.insert (a, b)).read a = b := by
  induction m with
  | nil => simp [Memory.insert, Memory.read_cons]
  | cons c m ih =>
    have hc : c.1 ≠ a := h c (by simp)
    have hm := ih (fun d hd => h d (by simp [hd]))
    simp only [Memory.insert]
    split
    · simp [Memory.read_cons]
    · rw [Memory.read_cons, if_neg hc, hm]

theorem Memory.read_insert_other (m : Memory) (c : Host.Cell) (a : Nat) (h : c.1 ≠ a) :
    (m.insert c).read a = m.read a := by
  induction m with
  | nil => simp [Memory.insert, Memory.read_cons, h]
  | cons d m ih =>
    simp only [Memory.insert]
    split
    · rw [Memory.read_cons, if_neg h]
    · simp only [Memory.read_cons, ih]

theorem Memory.read_filter_other (m : Memory) (a b : Nat) (h : a ≠ b) :
    Memory.read (m.filter (fun c => c.1 != a)) b = m.read b := by
  induction m with
  | nil => rfl
  | cons c m ih =>
    rw [Memory.read_cons]
    by_cases hc : c.1 = a
    · rw [List.filter_cons_of_neg (by simp [hc]), ih, if_neg (by omega)]
    · rw [List.filter_cons_of_pos (by simp [hc]), Memory.read_cons, ih]

theorem Memory.ne_of_mem_filter (m : Memory) (a : Nat) : ∀ c ∈ m.filter (fun c => c.1 != a), c.1 ≠ a := by
  intro c hc
  simpa using (List.mem_filter.mp hc).2

/-- Read after write: the byte stored at the address, every other byte as before, in every memory. -/
theorem Memory.read_write (m : Memory) (a b : Nat) (v : Byte) :
    (m.write a v).read b = if b = a then v else m.read b := by
  have hne := Memory.ne_of_mem_filter m a
  simp only [Memory.write]
  by_cases hb : b = a
  · subst hb
    rw [if_pos rfl]
    split
    · rename_i hv
      rw [Memory.read_unlisted _ _ hne, hv]
    · exact Memory.read_insert_same _ _ _ hne
  · rw [if_neg hb]
    split
    · exact Memory.read_filter_other m a b (Ne.symm hb)
    · rw [Memory.read_insert_other _ _ _ (Ne.symm hb), Memory.read_filter_other m a b (Ne.symm hb)]

/-! ### The canonical form -/

theorem Memory.wf_nil : Memory.wf [] := by simp [Memory.wf]

theorem Memory.mem_insert (m : Memory) (c d : Host.Cell) : d ∈ m.insert c ↔ d = c ∨ d ∈ m := by
  induction m with
  | nil => simp [Memory.insert]
  | cons e m ih =>
    simp only [Memory.insert]
    split
    · simp
    · simp only [List.mem_cons, ih]
      tauto

theorem Memory.rising_insert (m : Memory) (c : Host.Cell) (hm : m.Pairwise (fun c d => c.1 < d.1))
    (hc : ∀ d ∈ m, d.1 ≠ c.1) : (m.insert c).Pairwise (fun c d => c.1 < d.1) := by
  induction m with
  | nil => simp [Memory.insert]
  | cons e m ih =>
    obtain ⟨he, hm⟩ := List.pairwise_cons.mp hm
    have hec : e.1 ≠ c.1 := hc e (by simp)
    simp only [Memory.insert]
    split
    · rename_i hlt
      refine List.pairwise_cons.mpr ⟨fun d hd => ?_, List.pairwise_cons.mpr ⟨he, hm⟩⟩
      rcases List.mem_cons.mp hd with rfl | hd
      · exact hlt
      · exact Nat.lt_trans hlt (he d hd)
    · refine List.pairwise_cons.mpr ⟨fun d hd => ?_, ih hm (fun d hd => hc d (by simp [hd]))⟩
      rcases (Memory.mem_insert m c d).mp hd with rfl | hd
      · omega
      · exact he d hd

/-- Every write inside memory keeps the canonical form. -/
theorem Memory.wf_write (m : Memory) (a : Nat) (v : Byte) (ha : a < Config.memSize) (hm : m.wf) : (m.write a v).wf := by
  obtain ⟨hrise, hcells⟩ := hm
  have hrest : Memory.wf (m.filter (fun c => c.1 != a)) :=
    ⟨hrise.filter _, fun c hc => hcells c (List.mem_filter.mp hc).1⟩
  simp only [Memory.write]
  split
  · exact hrest
  · rename_i hv
    refine ⟨Memory.rising_insert _ _ hrest.1 (Memory.ne_of_mem_filter m a), fun c hc => ?_⟩
    rcases (Memory.mem_insert _ _ c).mp hc with rfl | hc
    · exact ⟨ha, hv⟩
    · exact hrest.2 c hc

/-! ### Blocks -/

/-- A block of bytes read back after it is written, and every byte outside it as before. -/
theorem Memory.read_writeBlock (bs : List Byte) (m : Memory) (base a : Nat) :
    (m.writeBlock base bs).read a =
      if base ≤ a ∧ a < base + bs.length then bs.getD (a - base) 0#8 else m.read a := by
  induction bs generalizing m base with
  | nil => simp [Memory.writeBlock]
  | cons b bs ih =>
    rw [Memory.writeBlock, ih, Memory.read_write]
    by_cases h0 : a = base
    · subst h0
      rw [if_neg (by omega), if_pos rfl, if_pos (by simp)]
      simp
    · by_cases h1 : base + 1 ≤ a ∧ a < base + 1 + bs.length
      · rw [if_pos h1, if_pos (by simp; omega), show a - base = (a - (base + 1)) + 1 by omega]
        simp
      · rw [if_neg h1, if_neg h0, if_neg (by simp; omega)]

/-- Every block write inside memory keeps the canonical form. -/
theorem Memory.wf_writeBlock (bs : List Byte) (m : Memory) (base : Nat) (h : base + bs.length ≤ Config.memSize) (hm : m.wf) :
    (m.writeBlock base bs).wf := by
  induction bs generalizing m base with
  | nil => exact hm
  | cons b bs ih =>
    simp only [List.length_cons] at h
    exact ih _ _ (by omega) (Memory.wf_write m base b (by omega) hm)

@[simp] theorem Memory.length_readBlock (m : Memory) (base n : Nat) : (m.readBlock base n).length = n := by
  simp [Memory.readBlock]

theorem Memory.getElem_readBlock (m : Memory) (base n k : Nat) (h : k < (m.readBlock base n).length) :
    (m.readBlock base n)[k] = m.read (base + k) := by
  simp [Memory.readBlock]

/-! ### The range check (20_memory R53, R54) -/

/-- The check passes exactly when no address of the range is at or above 4096. -/
theorem firstBadAddress_none (base n : Nat) : firstBadAddress base n = none ↔ n = 0 ∨ base + n ≤ Config.memSize := by
  simp only [firstBadAddress, List.find?_eq_none, List.mem_map, List.mem_range, decide_eq_true_eq, not_le,
    forall_exists_index, and_imp]
  constructor
  · intro h
    by_cases hn : n = 0
    · exact Or.inl hn
    · have := h (base + (n - 1)) (n - 1) (by omega) rfl
      omega
  · intro h a k hk ha
    omega

/-- The address reported is the lowest of the range that fails. -/
theorem firstBadAddress_some (base n a : Nat) :
    firstBadAddress base n = some a ↔ n ≠ 0 ∧ Config.memSize < base + n ∧ a = max base Config.memSize := by
  induction n with
  | zero => simp [firstBadAddress]
  | succ n ih =>
    rw [firstBadAddress, List.range_succ, List.map_append, List.find?_append, ← firstBadAddress]
    cases hf : firstBadAddress base n with
    | some b =>
      have hb : n ≠ 0 ∧ Config.memSize < base + n := by
        by_contra hcon
        have : firstBadAddress base n = none := (firstBadAddress_none base n).mpr (by omega)
        simp [this] at hf
      rw [← hf, Option.or_of_isSome (by simp [hf]), ih]
      omega
    | none =>
      have hn := (firstBadAddress_none base n).mp hf
      simp only [Option.none_or, List.map_cons, List.map_nil, List.find?_cons, List.find?_nil]
      by_cases hle : Config.memSize ≤ base + n
      · simp only [hle, decide_true, Option.some.injEq]
        constructor
        · intro h
          omega
        · intro h
          omega
      · simp only [hle, decide_false]
        simp
        omega

/-- What a checked effect answers: the effect when every address is inside memory, else the fault at the lowest failing one. -/
theorem withRange_eq (base n : Nat) (s effect : State) :
    withRange base n s effect =
      if n = 0 ∨ base + n ≤ Config.memSize then .next effect
      else raise (.addressError (max base Config.memSize)) s := by
  simp only [withRange]
  by_cases h : n = 0 ∨ base + n ≤ Config.memSize
  · rw [(firstBadAddress_none base n).mpr h, if_pos h]
  · rw [(firstBadAddress_some base n (max base Config.memSize)).mpr (by omega), if_neg h]

end Sys2Proof.Machine
end

