-- ==== Sys2Proof/Laws/State.lean ====
section
/-! SUPPORT. What each named update does to each field of `State`: one lemma a field, so that no proof unfolds an update. -/

namespace Sys2Proof.Machine

@[simp] theorem State.setV_v (s : State) (r : Reg) (b : Byte) : (s.setV r b).v = s.v.set r b := rfl
@[simp] theorem State.setV_i (s : State) (r : Reg) (b : Byte) : (s.setV r b).i = s.i := rfl
@[simp] theorem State.setV_pc (s : State) (r : Reg) (b : Byte) : (s.setV r b).pc = s.pc := rfl
@[simp] theorem State.setV_stack (s : State) (r : Reg) (b : Byte) : (s.setV r b).stack = s.stack := rfl
@[simp] theorem State.setV_dt (s : State) (r : Reg) (b : Byte) : (s.setV r b).dt = s.dt := rfl
@[simp] theorem State.setV_st (s : State) (r : Reg) (b : Byte) : (s.setV r b).st = s.st := rfl
@[simp] theorem State.setV_fb (s : State) (r : Reg) (b : Byte) : (s.setV r b).fb = s.fb := rfl
@[simp] theorem State.setV_keys (s : State) (r : Reg) (b : Byte) : (s.setV r b).keys = s.keys := rfl
@[simp] theorem State.setV_run (s : State) (r : Reg) (b : Byte) : (s.setV r b).run = s.run := rfl
@[simp] theorem State.setV_fontBase (s : State) (r : Reg) (b : Byte) : (s.setV r b).fontBase = s.fontBase := rfl
@[simp] theorem State.setV_keyLatch (s : State) (r : Reg) (b : Byte) : (s.setV r b).keyLatch = s.keyLatch := rfl
@[simp] theorem State.setV_mem (s : State) (r : Reg) (b : Byte) : (s.setV r b).mem = s.mem := rfl
@[simp] theorem State.setV_draws (s : State) (r : Reg) (b : Byte) : (s.setV r b).draws = s.draws := rfl

@[simp] theorem State.setI_v (s : State) (w : Word) : (s.setI w).v = s.v := rfl
@[simp] theorem State.setI_i (s : State) (w : Word) : (s.setI w).i = w := rfl
@[simp] theorem State.setI_pc (s : State) (w : Word) : (s.setI w).pc = s.pc := rfl
@[simp] theorem State.setI_stack (s : State) (w : Word) : (s.setI w).stack = s.stack := rfl
@[simp] theorem State.setI_dt (s : State) (w : Word) : (s.setI w).dt = s.dt := rfl
@[simp] theorem State.setI_st (s : State) (w : Word) : (s.setI w).st = s.st := rfl
@[simp] theorem State.setI_fb (s : State) (w : Word) : (s.setI w).fb = s.fb := rfl
@[simp] theorem State.setI_keys (s : State) (w : Word) : (s.setI w).keys = s.keys := rfl
@[simp] theorem State.setI_run (s : State) (w : Word) : (s.setI w).run = s.run := rfl
@[simp] theorem State.setI_fontBase (s : State) (w : Word) : (s.setI w).fontBase = s.fontBase := rfl
@[simp] theorem State.setI_keyLatch (s : State) (w : Word) : (s.setI w).keyLatch = s.keyLatch := rfl
@[simp] theorem State.setI_mem (s : State) (w : Word) : (s.setI w).mem = s.mem := rfl
@[simp] theorem State.setI_draws (s : State) (w : Word) : (s.setI w).draws = s.draws := rfl

@[simp] theorem State.setPc_v (s : State) (w : Word) : (s.setPc w).v = s.v := rfl
@[simp] theorem State.setPc_i (s : State) (w : Word) : (s.setPc w).i = s.i := rfl
@[simp] theorem State.setPc_pc (s : State) (w : Word) : (s.setPc w).pc = w := rfl
@[simp] theorem State.setPc_stack (s : State) (w : Word) : (s.setPc w).stack = s.stack := rfl
@[simp] theorem State.setPc_dt (s : State) (w : Word) : (s.setPc w).dt = s.dt := rfl
@[simp] theorem State.setPc_st (s : State) (w : Word) : (s.setPc w).st = s.st := rfl
@[simp] theorem State.setPc_fb (s : State) (w : Word) : (s.setPc w).fb = s.fb := rfl
@[simp] theorem State.setPc_keys (s : State) (w : Word) : (s.setPc w).keys = s.keys := rfl
@[simp] theorem State.setPc_run (s : State) (w : Word) : (s.setPc w).run = s.run := rfl
@[simp] theorem State.setPc_fontBase (s : State) (w : Word) : (s.setPc w).fontBase = s.fontBase := rfl
@[simp] theorem State.setPc_keyLatch (s : State) (w : Word) : (s.setPc w).keyLatch = s.keyLatch := rfl
@[simp] theorem State.setPc_mem (s : State) (w : Word) : (s.setPc w).mem = s.mem := rfl
@[simp] theorem State.setPc_draws (s : State) (w : Word) : (s.setPc w).draws = s.draws := rfl

@[simp] theorem State.setStack_v (s : State) (l : List Word) : (s.setStack l).v = s.v := rfl
@[simp] theorem State.setStack_i (s : State) (l : List Word) : (s.setStack l).i = s.i := rfl
@[simp] theorem State.setStack_pc (s : State) (l : List Word) : (s.setStack l).pc = s.pc := rfl
@[simp] theorem State.setStack_stack (s : State) (l : List Word) : (s.setStack l).stack = l := rfl
@[simp] theorem State.setStack_dt (s : State) (l : List Word) : (s.setStack l).dt = s.dt := rfl
@[simp] theorem State.setStack_st (s : State) (l : List Word) : (s.setStack l).st = s.st := rfl
@[simp] theorem State.setStack_fb (s : State) (l : List Word) : (s.setStack l).fb = s.fb := rfl
@[simp] theorem State.setStack_keys (s : State) (l : List Word) : (s.setStack l).keys = s.keys := rfl
@[simp] theorem State.setStack_run (s : State) (l : List Word) : (s.setStack l).run = s.run := rfl
@[simp] theorem State.setStack_fontBase (s : State) (l : List Word) : (s.setStack l).fontBase = s.fontBase := rfl
@[simp] theorem State.setStack_keyLatch (s : State) (l : List Word) : (s.setStack l).keyLatch = s.keyLatch := rfl
@[simp] theorem State.setStack_mem (s : State) (l : List Word) : (s.setStack l).mem = s.mem := rfl
@[simp] theorem State.setStack_draws (s : State) (l : List Word) : (s.setStack l).draws = s.draws := rfl

@[simp] theorem State.setDt_v (s : State) (b : Byte) : (s.setDt b).v = s.v := rfl
@[simp] theorem State.setDt_i (s : State) (b : Byte) : (s.setDt b).i = s.i := rfl
@[simp] theorem State.setDt_pc (s : State) (b : Byte) : (s.setDt b).pc = s.pc := rfl
@[simp] theorem State.setDt_stack (s : State) (b : Byte) : (s.setDt b).stack = s.stack := rfl
@[simp] theorem State.setDt_dt (s : State) (b : Byte) : (s.setDt b).dt = b := rfl
@[simp] theorem State.setDt_st (s : State) (b : Byte) : (s.setDt b).st = s.st := rfl
@[simp] theorem State.setDt_fb (s : State) (b : Byte) : (s.setDt b).fb = s.fb := rfl
@[simp] theorem State.setDt_keys (s : State) (b : Byte) : (s.setDt b).keys = s.keys := rfl
@[simp] theorem State.setDt_run (s : State) (b : Byte) : (s.setDt b).run = s.run := rfl
@[simp] theorem State.setDt_fontBase (s : State) (b : Byte) : (s.setDt b).fontBase = s.fontBase := rfl
@[simp] theorem State.setDt_keyLatch (s : State) (b : Byte) : (s.setDt b).keyLatch = s.keyLatch := rfl
@[simp] theorem State.setDt_mem (s : State) (b : Byte) : (s.setDt b).mem = s.mem := rfl
@[simp] theorem State.setDt_draws (s : State) (b : Byte) : (s.setDt b).draws = s.draws := rfl

@[simp] theorem State.setSt_v (s : State) (b : Byte) : (s.setSt b).v = s.v := rfl
@[simp] theorem State.setSt_i (s : State) (b : Byte) : (s.setSt b).i = s.i := rfl
@[simp] theorem State.setSt_pc (s : State) (b : Byte) : (s.setSt b).pc = s.pc := rfl
@[simp] theorem State.setSt_stack (s : State) (b : Byte) : (s.setSt b).stack = s.stack := rfl
@[simp] theorem State.setSt_dt (s : State) (b : Byte) : (s.setSt b).dt = s.dt := rfl
@[simp] theorem State.setSt_st (s : State) (b : Byte) : (s.setSt b).st = b := rfl
@[simp] theorem State.setSt_fb (s : State) (b : Byte) : (s.setSt b).fb = s.fb := rfl
@[simp] theorem State.setSt_keys (s : State) (b : Byte) : (s.setSt b).keys = s.keys := rfl
@[simp] theorem State.setSt_run (s : State) (b : Byte) : (s.setSt b).run = s.run := rfl
@[simp] theorem State.setSt_fontBase (s : State) (b : Byte) : (s.setSt b).fontBase = s.fontBase := rfl
@[simp] theorem State.setSt_keyLatch (s : State) (b : Byte) : (s.setSt b).keyLatch = s.keyLatch := rfl
@[simp] theorem State.setSt_mem (s : State) (b : Byte) : (s.setSt b).mem = s.mem := rfl
@[simp] theorem State.setSt_draws (s : State) (b : Byte) : (s.setSt b).draws = s.draws := rfl

@[simp] theorem State.setFb_v (s : State) (fb : Framebuffer) : (s.setFb fb).v = s.v := rfl
@[simp] theorem State.setFb_i (s : State) (fb : Framebuffer) : (s.setFb fb).i = s.i := rfl
@[simp] theorem State.setFb_pc (s : State) (fb : Framebuffer) : (s.setFb fb).pc = s.pc := rfl
@[simp] theorem State.setFb_stack (s : State) (fb : Framebuffer) : (s.setFb fb).stack = s.stack := rfl
@[simp] theorem State.setFb_dt (s : State) (fb : Framebuffer) : (s.setFb fb).dt = s.dt := rfl
@[simp] theorem State.setFb_st (s : State) (fb : Framebuffer) : (s.setFb fb).st = s.st := rfl
@[simp] theorem State.setFb_fb (s : State) (fb : Framebuffer) : (s.setFb fb).fb = fb := rfl
@[simp] theorem State.setFb_keys (s : State) (fb : Framebuffer) : (s.setFb fb).keys = s.keys := rfl
@[simp] theorem State.setFb_run (s : State) (fb : Framebuffer) : (s.setFb fb).run = s.run := rfl
@[simp] theorem State.setFb_fontBase (s : State) (fb : Framebuffer) : (s.setFb fb).fontBase = s.fontBase := rfl
@[simp] theorem State.setFb_keyLatch (s : State) (fb : Framebuffer) : (s.setFb fb).keyLatch = s.keyLatch := rfl
@[simp] theorem State.setFb_mem (s : State) (fb : Framebuffer) : (s.setFb fb).mem = s.mem := rfl
@[simp] theorem State.setFb_draws (s : State) (fb : Framebuffer) : (s.setFb fb).draws = s.draws := rfl

@[simp] theorem State.setKeyFlag_v (s : State) (k : Key) (p : Bool) : (s.setKeyFlag k p).v = s.v := rfl
@[simp] theorem State.setKeyFlag_i (s : State) (k : Key) (p : Bool) : (s.setKeyFlag k p).i = s.i := rfl
@[simp] theorem State.setKeyFlag_pc (s : State) (k : Key) (p : Bool) : (s.setKeyFlag k p).pc = s.pc := rfl
@[simp] theorem State.setKeyFlag_stack (s : State) (k : Key) (p : Bool) : (s.setKeyFlag k p).stack = s.stack := rfl
@[simp] theorem State.setKeyFlag_dt (s : State) (k : Key) (p : Bool) : (s.setKeyFlag k p).dt = s.dt := rfl
@[simp] theorem State.setKeyFlag_st (s : State) (k : Key) (p : Bool) : (s.setKeyFlag k p).st = s.st := rfl
@[simp] theorem State.setKeyFlag_fb (s : State) (k : Key) (p : Bool) : (s.setKeyFlag k p).fb = s.fb := rfl
@[simp] theorem State.setKeyFlag_keys (s : State) (k : Key) (p : Bool) : (s.setKeyFlag k p).keys = s.keys.set k p := rfl
@[simp] theorem State.setKeyFlag_run (s : State) (k : Key) (p : Bool) : (s.setKeyFlag k p).run = s.run := rfl
@[simp] theorem State.setKeyFlag_fontBase (s : State) (k : Key) (p : Bool) : (s.setKeyFlag k p).fontBase = s.fontBase := rfl
@[simp] theorem State.setKeyFlag_keyLatch (s : State) (k : Key) (p : Bool) : (s.setKeyFlag k p).keyLatch = s.keyLatch := rfl
@[simp] theorem State.setKeyFlag_mem (s : State) (k : Key) (p : Bool) : (s.setKeyFlag k p).mem = s.mem := rfl
@[simp] theorem State.setKeyFlag_draws (s : State) (k : Key) (p : Bool) : (s.setKeyFlag k p).draws = s.draws := rfl

@[simp] theorem State.setRun_v (s : State) (r : RunState) : (s.setRun r).v = s.v := rfl
@[simp] theorem State.setRun_i (s : State) (r : RunState) : (s.setRun r).i = s.i := rfl
@[simp] theorem State.setRun_pc (s : State) (r : RunState) : (s.setRun r).pc = s.pc := rfl
@[simp] theorem State.setRun_stack (s : State) (r : RunState) : (s.setRun r).stack = s.stack := rfl
@[simp] theorem State.setRun_dt (s : State) (r : RunState) : (s.setRun r).dt = s.dt := rfl
@[simp] theorem State.setRun_st (s : State) (r : RunState) : (s.setRun r).st = s.st := rfl
@[simp] theorem State.setRun_fb (s : State) (r : RunState) : (s.setRun r).fb = s.fb := rfl
@[simp] theorem State.setRun_keys (s : State) (r : RunState) : (s.setRun r).keys = s.keys := rfl
@[simp] theorem State.setRun_run (s : State) (r : RunState) : (s.setRun r).run = r := rfl
@[simp] theorem State.setRun_fontBase (s : State) (r : RunState) : (s.setRun r).fontBase = s.fontBase := rfl
@[simp] theorem State.setRun_keyLatch (s : State) (r : RunState) : (s.setRun r).keyLatch = s.keyLatch := rfl
@[simp] theorem State.setRun_mem (s : State) (r : RunState) : (s.setRun r).mem = s.mem := rfl
@[simp] theorem State.setRun_draws (s : State) (r : RunState) : (s.setRun r).draws = s.draws := rfl

@[simp] theorem State.setKeyLatch_v (s : State) (l : Option Key) : (s.setKeyLatch l).v = s.v := rfl
@[simp] theorem State.setKeyLatch_i (s : State) (l : Option Key) : (s.setKeyLatch l).i = s.i := rfl
@[simp] theorem State.setKeyLatch_pc (s : State) (l : Option Key) : (s.setKeyLatch l).pc = s.pc := rfl
@[simp] theorem State.setKeyLatch_stack (s : State) (l : Option Key) : (s.setKeyLatch l).stack = s.stack := rfl
@[simp] theorem State.setKeyLatch_dt (s : State) (l : Option Key) : (s.setKeyLatch l).dt = s.dt := rfl
@[simp] theorem State.setKeyLatch_st (s : State) (l : Option Key) : (s.setKeyLatch l).st = s.st := rfl
@[simp] theorem State.setKeyLatch_fb (s : State) (l : Option Key) : (s.setKeyLatch l).fb = s.fb := rfl
@[simp] theorem State.setKeyLatch_keys (s : State) (l : Option Key) : (s.setKeyLatch l).keys = s.keys := rfl
@[simp] theorem State.setKeyLatch_run (s : State) (l : Option Key) : (s.setKeyLatch l).run = s.run := rfl
@[simp] theorem State.setKeyLatch_fontBase (s : State) (l : Option Key) : (s.setKeyLatch l).fontBase = s.fontBase := rfl
@[simp] theorem State.setKeyLatch_keyLatch (s : State) (l : Option Key) : (s.setKeyLatch l).keyLatch = l := rfl
@[simp] theorem State.setKeyLatch_mem (s : State) (l : Option Key) : (s.setKeyLatch l).mem = s.mem := rfl
@[simp] theorem State.setKeyLatch_draws (s : State) (l : Option Key) : (s.setKeyLatch l).draws = s.draws := rfl

@[simp] theorem State.setMem_v (s : State) (m : Memory) : (s.setMem m).v = s.v := rfl
@[simp] theorem State.setMem_i (s : State) (m : Memory) : (s.setMem m).i = s.i := rfl
@[simp] theorem State.setMem_pc (s : State) (m : Memory) : (s.setMem m).pc = s.pc := rfl
@[simp] theorem State.setMem_stack (s : State) (m : Memory) : (s.setMem m).stack = s.stack := rfl
@[simp] theorem State.setMem_dt (s : State) (m : Memory) : (s.setMem m).dt = s.dt := rfl
@[simp] theorem State.setMem_st (s : State) (m : Memory) : (s.setMem m).st = s.st := rfl
@[simp] theorem State.setMem_fb (s : State) (m : Memory) : (s.setMem m).fb = s.fb := rfl
@[simp] theorem State.setMem_keys (s : State) (m : Memory) : (s.setMem m).keys = s.keys := rfl
@[simp] theorem State.setMem_run (s : State) (m : Memory) : (s.setMem m).run = s.run := rfl
@[simp] theorem State.setMem_fontBase (s : State) (m : Memory) : (s.setMem m).fontBase = s.fontBase := rfl
@[simp] theorem State.setMem_keyLatch (s : State) (m : Memory) : (s.setMem m).keyLatch = s.keyLatch := rfl
@[simp] theorem State.setMem_mem (s : State) (m : Memory) : (s.setMem m).mem = m := rfl
@[simp] theorem State.setMem_draws (s : State) (m : Memory) : (s.setMem m).draws = s.draws := rfl

@[simp] theorem State.countDraw_v (s : State) : s.countDraw.v = s.v := rfl
@[simp] theorem State.countDraw_i (s : State) : s.countDraw.i = s.i := rfl
@[simp] theorem State.countDraw_pc (s : State) : s.countDraw.pc = s.pc := rfl
@[simp] theorem State.countDraw_stack (s : State) : s.countDraw.stack = s.stack := rfl
@[simp] theorem State.countDraw_dt (s : State) : s.countDraw.dt = s.dt := rfl
@[simp] theorem State.countDraw_st (s : State) : s.countDraw.st = s.st := rfl
@[simp] theorem State.countDraw_fb (s : State) : s.countDraw.fb = s.fb := rfl
@[simp] theorem State.countDraw_keys (s : State) : s.countDraw.keys = s.keys := rfl
@[simp] theorem State.countDraw_run (s : State) : s.countDraw.run = s.run := rfl
@[simp] theorem State.countDraw_fontBase (s : State) : s.countDraw.fontBase = s.fontBase := rfl
@[simp] theorem State.countDraw_keyLatch (s : State) : s.countDraw.keyLatch = s.keyLatch := rfl
@[simp] theorem State.countDraw_mem (s : State) : s.countDraw.mem = s.mem := rfl
@[simp] theorem State.countDraw_draws (s : State) : s.countDraw.draws = s.draws + 1 := rfl

@[simp] theorem State.advance_v (s : State) : s.advance.v = s.v := rfl
@[simp] theorem State.advance_i (s : State) : s.advance.i = s.i := rfl
@[simp] theorem State.advance_pc (s : State) : s.advance.pc = s.pc + 2#16 := rfl
@[simp] theorem State.advance_stack (s : State) : s.advance.stack = s.stack := rfl
@[simp] theorem State.advance_dt (s : State) : s.advance.dt = s.dt := rfl
@[simp] theorem State.advance_st (s : State) : s.advance.st = s.st := rfl
@[simp] theorem State.advance_fb (s : State) : s.advance.fb = s.fb := rfl
@[simp] theorem State.advance_keys (s : State) : s.advance.keys = s.keys := rfl
@[simp] theorem State.advance_run (s : State) : s.advance.run = s.run := rfl
@[simp] theorem State.advance_fontBase (s : State) : s.advance.fontBase = s.fontBase := rfl
@[simp] theorem State.advance_keyLatch (s : State) : s.advance.keyLatch = s.keyLatch := rfl
@[simp] theorem State.advance_mem (s : State) : s.advance.mem = s.mem := rfl
@[simp] theorem State.advance_draws (s : State) : s.advance.draws = s.draws := rfl

@[simp] theorem State.skipIf_v (s : State) (c : Bool) : (s.skipIf c).v = s.v := rfl
@[simp] theorem State.skipIf_i (s : State) (c : Bool) : (s.skipIf c).i = s.i := rfl
@[simp] theorem State.skipIf_pc (s : State) (c : Bool) : (s.skipIf c).pc = s.pc + if c then 4#16 else 2#16 := rfl
@[simp] theorem State.skipIf_stack (s : State) (c : Bool) : (s.skipIf c).stack = s.stack := rfl
@[simp] theorem State.skipIf_dt (s : State) (c : Bool) : (s.skipIf c).dt = s.dt := rfl
@[simp] theorem State.skipIf_st (s : State) (c : Bool) : (s.skipIf c).st = s.st := rfl
@[simp] theorem State.skipIf_fb (s : State) (c : Bool) : (s.skipIf c).fb = s.fb := rfl
@[simp] theorem State.skipIf_keys (s : State) (c : Bool) : (s.skipIf c).keys = s.keys := rfl
@[simp] theorem State.skipIf_run (s : State) (c : Bool) : (s.skipIf c).run = s.run := rfl
@[simp] theorem State.skipIf_fontBase (s : State) (c : Bool) : (s.skipIf c).fontBase = s.fontBase := rfl
@[simp] theorem State.skipIf_keyLatch (s : State) (c : Bool) : (s.skipIf c).keyLatch = s.keyLatch := rfl
@[simp] theorem State.skipIf_mem (s : State) (c : Bool) : (s.skipIf c).mem = s.mem := rfl
@[simp] theorem State.skipIf_draws (s : State) (c : Bool) : (s.skipIf c).draws = s.draws := rfl

@[simp] theorem State.enterFault_v (s : State) (e : ErrorKind) : (s.enterFault e).v = s.v := rfl
@[simp] theorem State.enterFault_i (s : State) (e : ErrorKind) : (s.enterFault e).i = s.i := rfl
@[simp] theorem State.enterFault_pc (s : State) (e : ErrorKind) : (s.enterFault e).pc = s.pc := rfl
@[simp] theorem State.enterFault_stack (s : State) (e : ErrorKind) : (s.enterFault e).stack = s.stack := rfl
@[simp] theorem State.enterFault_dt (s : State) (e : ErrorKind) : (s.enterFault e).dt = s.dt := rfl
@[simp] theorem State.enterFault_st (s : State) (e : ErrorKind) : (s.enterFault e).st = s.st := rfl
@[simp] theorem State.enterFault_fb (s : State) (e : ErrorKind) : (s.enterFault e).fb = s.fb := rfl
@[simp] theorem State.enterFault_keys (s : State) (e : ErrorKind) : (s.enterFault e).keys = s.keys := rfl
@[simp] theorem State.enterFault_run (s : State) (e : ErrorKind) : (s.enterFault e).run = .faulted e := rfl
@[simp] theorem State.enterFault_fontBase (s : State) (e : ErrorKind) : (s.enterFault e).fontBase = s.fontBase := rfl
@[simp] theorem State.enterFault_keyLatch (s : State) (e : ErrorKind) : (s.enterFault e).keyLatch = s.keyLatch := rfl
@[simp] theorem State.enterFault_mem (s : State) (e : ErrorKind) : (s.enterFault e).mem = s.mem := rfl
@[simp] theorem State.enterFault_draws (s : State) (e : ErrorKind) : (s.enterFault e).draws = s.draws := rfl

/-- A V register after a write of one (00_scope R9). -/
theorem State.getV_setV (s : State) (r q : Reg) (b : Byte) : (s.setV r b).getV q = if q = r then b else s.getV q := by
  simp only [State.getV, State.setV, Fin.getElem_fin, Vector.getElem_set, Fin.val_inj]
  split <;> simp_all [eq_comm]

@[simp] theorem State.getV_setV_same (s : State) (r : Reg) (b : Byte) : (s.setV r b).getV r = b := by
  simp [State.getV_setV]

@[simp] theorem State.getV_setV_other (s : State) (r q : Reg) (b : Byte) (h : q ≠ r) : (s.setV r b).getV q = s.getV q := by
  simp [State.getV_setV, h]

/-- A key flag after a write of one (60_exceptions R243). -/
theorem State.keyFlag_setKeyFlag (s : State) (k j : Key) (p : Bool) :
    (s.setKeyFlag k p).keyFlag j = if j = k then p else s.keyFlag j := by
  simp only [State.keyFlag, State.setKeyFlag, Fin.getElem_fin, Vector.getElem_set, Fin.val_inj]
  split <;> simp_all [eq_comm]

@[simp] theorem State.keyFlag_setV (s : State) (r : Reg) (b : Byte) (j : Key) : (s.setV r b).keyFlag j = s.keyFlag j := rfl
@[simp] theorem State.indexBase_setV (s : State) (r : Reg) (b : Byte) : (s.setV r b).indexBase = s.indexBase := rfl
@[simp] theorem State.getV_setI (s : State) (w : Word) (q : Reg) : (s.setI w).getV q = s.getV q := rfl
@[simp] theorem State.keyFlag_setI (s : State) (w : Word) (j : Key) : (s.setI w).keyFlag j = s.keyFlag j := rfl
@[simp] theorem State.getV_setPc (s : State) (w : Word) (q : Reg) : (s.setPc w).getV q = s.getV q := rfl
@[simp] theorem State.keyFlag_setPc (s : State) (w : Word) (j : Key) : (s.setPc w).keyFlag j = s.keyFlag j := rfl
@[simp] theorem State.indexBase_setPc (s : State) (w : Word) : (s.setPc w).indexBase = s.indexBase := rfl
@[simp] theorem State.getV_setStack (s : State) (l : List Word) (q : Reg) : (s.setStack l).getV q = s.getV q := rfl
@[simp] theorem State.keyFlag_setStack (s : State) (l : List Word) (j : Key) : (s.setStack l).keyFlag j = s.keyFlag j := rfl
@[simp] theorem State.indexBase_setStack (s : State) (l : List Word) : (s.setStack l).indexBase = s.indexBase := rfl
@[simp] theorem State.getV_setDt (s : State) (b : Byte) (q : Reg) : (s.setDt b).getV q = s.getV q := rfl
@[simp] theorem State.keyFlag_setDt (s : State) (b : Byte) (j : Key) : (s.setDt b).keyFlag j = s.keyFlag j := rfl
@[simp] theorem State.indexBase_setDt (s : State) (b : Byte) : (s.setDt b).indexBase = s.indexBase := rfl
@[simp] theorem State.getV_setSt (s : State) (b : Byte) (q : Reg) : (s.setSt b).getV q = s.getV q := rfl
@[simp] theorem State.keyFlag_setSt (s : State) (b : Byte) (j : Key) : (s.setSt b).keyFlag j = s.keyFlag j := rfl
@[simp] theorem State.indexBase_setSt (s : State) (b : Byte) : (s.setSt b).indexBase = s.indexBase := rfl
@[simp] theorem State.getV_setFb (s : State) (fb : Framebuffer) (q : Reg) : (s.setFb fb).getV q = s.getV q := rfl
@[simp] theorem State.keyFlag_setFb (s : State) (fb : Framebuffer) (j : Key) : (s.setFb fb).keyFlag j = s.keyFlag j := rfl
@[simp] theorem State.indexBase_setFb (s : State) (fb : Framebuffer) : (s.setFb fb).indexBase = s.indexBase := rfl
@[simp] theorem State.getV_setKeyFlag (s : State) (k : Key) (p : Bool) (q : Reg) : (s.setKeyFlag k p).getV q = s.getV q := rfl
@[simp] theorem State.indexBase_setKeyFlag (s : State) (k : Key) (p : Bool) : (s.setKeyFlag k p).indexBase = s.indexBase := rfl
@[simp] theorem State.getV_setRun (s : State) (r : RunState) (q : Reg) : (s.setRun r).getV q = s.getV q := rfl
@[simp] theorem State.keyFlag_setRun (s : State) (r : RunState) (j : Key) : (s.setRun r).keyFlag j = s.keyFlag j := rfl
@[simp] theorem State.indexBase_setRun (s : State) (r : RunState) : (s.setRun r).indexBase = s.indexBase := rfl
@[simp] theorem State.getV_setKeyLatch (s : State) (l : Option Key) (q : Reg) : (s.setKeyLatch l).getV q = s.getV q := rfl
@[simp] theorem State.keyFlag_setKeyLatch (s : State) (l : Option Key) (j : Key) : (s.setKeyLatch l).keyFlag j = s.keyFlag j := rfl
@[simp] theorem State.indexBase_setKeyLatch (s : State) (l : Option Key) : (s.setKeyLatch l).indexBase = s.indexBase := rfl
@[simp] theorem State.getV_setMem (s : State) (m : Memory) (q : Reg) : (s.setMem m).getV q = s.getV q := rfl
@[simp] theorem State.keyFlag_setMem (s : State) (m : Memory) (j : Key) : (s.setMem m).keyFlag j = s.keyFlag j := rfl
@[simp] theorem State.indexBase_setMem (s : State) (m : Memory) : (s.setMem m).indexBase = s.indexBase := rfl
@[simp] theorem State.getV_countDraw (s : State) (q : Reg) : s.countDraw.getV q = s.getV q := rfl
@[simp] theorem State.keyFlag_countDraw (s : State) (j : Key) : s.countDraw.keyFlag j = s.keyFlag j := rfl
@[simp] theorem State.indexBase_countDraw (s : State) : s.countDraw.indexBase = s.indexBase := rfl
@[simp] theorem State.getV_advance (s : State) (q : Reg) : s.advance.getV q = s.getV q := rfl
@[simp] theorem State.keyFlag_advance (s : State) (j : Key) : s.advance.keyFlag j = s.keyFlag j := rfl
@[simp] theorem State.indexBase_advance (s : State) : s.advance.indexBase = s.indexBase := rfl
@[simp] theorem State.getV_skipIf (s : State) (c : Bool) (q : Reg) : (s.skipIf c).getV q = s.getV q := rfl
@[simp] theorem State.keyFlag_skipIf (s : State) (c : Bool) (j : Key) : (s.skipIf c).keyFlag j = s.keyFlag j := rfl
@[simp] theorem State.indexBase_skipIf (s : State) (c : Bool) : (s.skipIf c).indexBase = s.indexBase := rfl
@[simp] theorem State.getV_enterFault (s : State) (e : ErrorKind) (q : Reg) : (s.enterFault e).getV q = s.getV q := rfl
@[simp] theorem State.keyFlag_enterFault (s : State) (e : ErrorKind) (j : Key) : (s.enterFault e).keyFlag j = s.keyFlag j := rfl
@[simp] theorem State.indexBase_enterFault (s : State) (e : ErrorKind) : (s.enterFault e).indexBase = s.indexBase := rfl

/-- Two states are equal when every field is. -/
theorem State.eq_of_fields (s t : State) (hv : ∀ r, s.getV r = t.getV r) (hi : s.i = t.i) (hpc : s.pc = t.pc)
    (hstack : s.stack = t.stack) (hdt : s.dt = t.dt) (hst : s.st = t.st) (hfb : s.fb = t.fb)
    (hkeys : ∀ k, s.keyFlag k = t.keyFlag k) (hrun : s.run = t.run) (hfont : s.fontBase = t.fontBase)
    (hlatch : s.keyLatch = t.keyLatch) (hmem : s.mem = t.mem) (hdraws : s.draws = t.draws) : s = t := by
  have hv' : s.v = t.v := Vector.ext (fun n h => hv ⟨n, h⟩)
  have hk' : s.keys = t.keys := Vector.ext (fun n h => hkeys ⟨n, h⟩)
  cases s
  cases t
  simp_all

end Sys2Proof.Machine
end

