-- ==== Sys2Proof/Laws/Operands.lean ====
section
/-! SUPPORT. What the operand forms and flag computations are, once each. -/

namespace Sys2Proof.Machine

@[simp] theorem addrOperand_toNat (nnn : Addr) : (addrOperand nnn).toNat = nnn.toNat := by
  simp [addrOperand]
  omega

@[simp] theorem wideByte_toNat (b : Byte) : (wideByte b).toNat = b.toNat := by
  simp [wideByte]
  omega

theorem flagByte_toNat (b : Bool) : (flagByte b).toNat = b.toNat := by
  cases b <;> rfl

theorem carry_iff (x y : Byte) : carry x y = true ↔ 255 < x.toNat + y.toNat := by
  simp [carry]

theorem noBorrow_iff (x y : Byte) : noBorrow x y = true ↔ y.toNat ≤ x.toNat := by
  simp [noBorrow]

theorem shiftedOutRight_eq (y : Byte) : flagByte (shiftedOutRight y) = BitVec.ofNat 8 (y.toNat % 2) := by
  revert y
  decide

theorem shiftedOutLeft_eq (y : Byte) : flagByte (shiftedOutLeft y) = BitVec.ofNat 8 (y.toNat / 128) := by
  revert y
  decide

/-- After a flag-writing instruction VF is the flag, V[X] the result unless X is 15, and the rest is as before (41_alu R132). -/
theorem State.getV_setResultAndFlag (s : State) (x q : Reg) (result : Byte) (flag : Bool) :
    (s.setResultAndFlag x result flag).getV q =
      if q = Reg.vf then flagByte flag else if q = x then result else s.getV q := by
  simp only [State.setResultAndFlag, State.getV_setV]

theorem regsUpTo_length (x : Reg) : (regsUpTo x).length = x.val + 1 := by
  revert x
  decide

theorem regsUpTo_getElem (x : Reg) (k : Nat) (hk : k < (regsUpTo x).length) (h16 : k < 16) :
    (regsUpTo x)[k] = ⟨k, h16⟩ := by
  have h : ∀ (x : Reg) (k : Fin 16), (regsUpTo x)[k.val]? = if k ≤ x then some k else none := by decide
  have := h x ⟨k, h16⟩
  rw [regsUpTo_length] at hk
  rw [if_pos (by simp [Fin.le_def]; omega)] at this
  exact (List.getElem?_eq_some_iff.mp this).2

theorem mem_regsUpTo (x k : Reg) : k ∈ regsUpTo x ↔ k ≤ x := by
  revert x k
  decide

theorem keyOperand_some (b : Byte) (k : Key) : keyOperand b = some k ↔ b.toNat = k.val := by
  have hk := k.isLt
  simp only [keyOperand]
  split
  · simp [Fin.ext_iff]
  · simp
    omega

theorem keyOperand_none (b : Byte) : keyOperand b = none ↔ 15 < b.toNat := by
  simp only [keyOperand]
  split <;> simp <;> omega

/-- A load of registers from memory touches only V. -/
theorem State.loadRegs_eq (regs : List Reg) (s : State) :
    ∃ v, s.loadRegs regs = { s with v := v } := by
  induction regs generalizing s with
  | nil => exact ⟨s.v, rfl⟩
  | cons k regs ih =>
    obtain ⟨v, hv⟩ := ih (s.setV k (s.mem.read (s.indexBase + k.val)))
    exact ⟨v, hv⟩

/-- Each register of the list gets the byte at I plus its number, the others stay (42_index_memory R166). -/
theorem State.getV_loadRegs (regs : List Reg) (s : State) (q : Reg) :
    (s.loadRegs regs).getV q = if q ∈ regs then s.mem.read (s.indexBase + q.val) else s.getV q := by
  induction regs generalizing s with
  | nil => simp [State.loadRegs]
  | cons k regs ih =>
    have hstep : s.loadRegs (k :: regs) = (s.setV k (s.mem.read (s.indexBase + k.val))).loadRegs regs := rfl
    rw [hstep, ih]
    by_cases hq : q ∈ regs
    · simp [hq]
    · by_cases hk : q = k
      · subst hk
        simp [hq]
      · simp [hq, hk]

theorem bcdDigits_length (b : Byte) : (bcdDigits b).length = 3 := rfl

end Sys2Proof.Machine
end

