-- ==== Sys2Proof/Laws/Display.lean ====
section
/-! SUPPORT. What the framebuffer operations do, pixel by pixel. -/

namespace Sys2Proof.Machine

@[simp] theorem wrapRow_val (n : Nat) : (wrapRow n).val = n % 32 := rfl

@[simp] theorem wrapCol_val (n : Nat) : (wrapCol n).val = n % 64 := rfl

@[simp] theorem Framebuffer.pixel_blank (r : Fin 32) (c : Fin 64) : Framebuffer.blank.pixel r c = false := by
  simp [Framebuffer.blank, Framebuffer.pixel]

/-- Flipping a pixel changes it and no other. -/
theorem Framebuffer.pixel_flip (fb : Framebuffer) (r q : Fin 32) (c d : Fin 64) :
    (fb.flip r c).pixel q d = if q = r ∧ d = c then !fb.pixel r c else fb.pixel q d := by
  simp only [Framebuffer.pixel, Framebuffer.flip, Fin.getElem_fin, Vector.getElem_set, Fin.ext_iff]
  by_cases hq : r.val = q.val
  · simp only [hq, if_true, Vector.getElem_set, true_and]
    by_cases hd : c.val = d.val
    · simp [hd]
    · simp [hd, Ne.symm hd]
  · simp [hq, Ne.symm hq]

/-- Two framebuffers with the same pixels are the same. -/
theorem Framebuffer.eq_of_pixels (f g : Framebuffer) (h : ∀ r c, f.pixel r c = g.pixel r c) : f = g :=
  Vector.ext (fun n hn => Vector.ext (fun k hk => h ⟨n, hn⟩ ⟨k, hk⟩))

/-- A list of distinct columns: flipping each flips exactly those pixels of the row, and collides exactly on a pixel that was 1. -/
theorem blitPixels_spec (r : Fin 32) (cols : List (Fin 64)) (hd : cols.Nodup) (d : Blit) :
    (∀ q c, (cols.foldl (fun d c => blitPixel r c d) d).fb.pixel q c =
        if q = r ∧ c ∈ cols then !d.fb.pixel q c else d.fb.pixel q c) ∧
    (cols.foldl (fun d c => blitPixel r c d) d).collision =
        (d.collision || cols.any (fun c => d.fb.pixel r c)) := by
  induction cols generalizing d with
  | nil => simp
  | cons e cols ih =>
    obtain ⟨he, hd'⟩ := List.nodup_cons.mp hd
    obtain ⟨hp, hc⟩ := ih hd' (blitPixel r e d)
    simp only [List.foldl_cons]
    constructor
    · intro q c
      rw [hp]
      simp only [blitPixel, Framebuffer.pixel_flip, List.mem_cons]
      by_cases hce : c = e
      · subst hce
        by_cases hq : q = r
        · subst hq; simp [he]
        · simp [hq]
      · simp [hce]
    · rw [hc]
      simp only [blitPixel, Framebuffer.pixel_flip, List.any_cons, Bool.or_assoc]
      congr 2
      rw [Bool.eq_iff_iff, List.any_eq_true, List.any_eq_true]
      constructor
      · rintro ⟨c, hcm, h⟩
        have : c ≠ e := fun h => he (h ▸ hcm)
        exact ⟨c, hcm, by simpa [this] using h⟩
      · rintro ⟨c, hcm, h⟩
        have : c ≠ e := fun h => he (h ▸ hcm)
        exact ⟨c, hcm, by simpa [this] using h⟩

/-- The columns of a sprite byte's bits that are 1, in the order the engine visits them (43_display R183, R184). -/
def spriteCols (x0 : Nat) (b : Byte) : List (Fin 64) :=
  ((List.range 8).filter (fun j => spriteBit b j)).map (fun j => wrapCol (x0 + j))

theorem mem_spriteCols (x0 : Nat) (b : Byte) (c : Fin 64) :
    c ∈ spriteCols x0 b ↔ ∃ j, j < 8 ∧ spriteBit b j = true ∧ c.val = (x0 + j) % 64 := by
  simp only [spriteCols, List.mem_map, List.mem_filter, List.mem_range, Fin.ext_iff, wrapCol_val]
  constructor
  · rintro ⟨j, ⟨h8, hb⟩, hc⟩
    exact ⟨j, h8, hb, hc.symm⟩
  · rintro ⟨j, h8, hb, hc⟩
    exact ⟨j, ⟨h8, hb⟩, hc.symm⟩

/-- The eight columns of a row are distinct (43_display R187). -/
theorem spriteCols_nodup (x0 : Nat) (b : Byte) : (spriteCols x0 b).Nodup := by
  refine List.Nodup.map_on ?_ (List.nodup_range.filter _)
  intro j hj k hk h
  have hj' : j < 8 := by simpa using (List.mem_filter.mp hj).1
  have hk' : k < 8 := by simpa using (List.mem_filter.mp hk).1
  have := congrArg Fin.val h
  simp only [wrapCol_val] at this
  omega

theorem blitRow_eq (x0 : Nat) (r : Fin 32) (b : Byte) (d : Blit) :
    blitRow x0 r b d = (spriteCols x0 b).foldl (fun d c => blitPixel r c d) d := by
  simp only [blitRow, spriteCols, List.foldl_map, List.foldl_filter]

end Sys2Proof.Machine
end

