-- ==== Sys2Proof/Laws/Encoding.lean ====
section
/-! SUPPORT. The fields of a word as digits of its number, and the number of an encoded word: what decoding and encoding proofs
cite instead of slicing bits. -/

namespace Sys2Proof

theorem fieldF_toNat (w : Word) : (fieldF w).toNat = w.toNat / 0x1000 := by
  have := w.isLt
  simp [fieldF, Nat.shiftRight_eq_div_pow]
  omega

theorem fieldX_val (w : Word) : (fieldX w).val = w.toNat / 0x100 % 16 := by
  simp [fieldX, Nat.shiftRight_eq_div_pow]

theorem fieldY_val (w : Word) : (fieldY w).val = w.toNat / 0x10 % 16 := by
  simp [fieldY, Nat.shiftRight_eq_div_pow]

theorem fieldN_toNat (w : Word) : (fieldN w).toNat = w.toNat % 16 := by
  simp [fieldN]

theorem fieldNN_toNat (w : Word) : (fieldNN w).toNat = w.toNat % 256 := by
  simp [fieldNN]

theorem fieldNNN_toNat (w : Word) : (fieldNNN w).toNat = w.toNat % 4096 := by
  simp [fieldNNN]

theorem encodeAddr_toNat (f : Nat) (nnn : Addr) (hf : f < 16) : (encodeAddr f nnn).toNat = f * 0x1000 + nnn.toNat := by
  have := nnn.isLt
  simp [encodeAddr]
  omega

theorem encodeRegImm_toNat (f : Nat) (x : Reg) (nn : Nat) (hf : f < 16) (hn : nn < 256) :
    (encodeRegImm f x nn).toNat = f * 0x1000 + x.val * 0x100 + nn := by
  have := x.isLt
  simp [encodeRegImm]
  omega

theorem encodeRegReg_toNat (f : Nat) (x y : Reg) (n : Nat) (hf : f < 16) (hn : n < 16) :
    (encodeRegReg f x y n).toNat = f * 0x1000 + x.val * 0x100 + y.val * 0x10 + n := by
  have := x.isLt
  have := y.isLt
  simp [encodeRegReg]
  omega

theorem concat_toNat (hi lo : Byte) : (concat hi lo).toNat = hi.toNat * 256 + lo.toNat := by
  have := lo.isLt
  rw [concat, BitVec.toNat_append, ← Nat.shiftLeft_add_eq_or_of_lt lo.isLt, Nat.shiftLeft_eq]

/-- A word laid out as two bytes and read back is the word (20_memory R55). -/
theorem concat_highByte_lowByte (w : Word) : concat (highByte w) (lowByte w) = w := by
  have := w.isLt
  apply BitVec.eq_of_toNat_eq
  rw [concat_toNat]
  simp [highByte, lowByte, Nat.shiftRight_eq_div_pow]
  omega

end Sys2Proof
end

