-- ==== Sys2Proof/Laws/Machine.lean ====
section
/-! SUPPORT. What the fetch, one cycle, the key wait and the ports can do, once each. -/

namespace Sys2Proof.Machine

@[simp] theorem raise_eq (e : ErrorKind) (s : State) : raise e s = .next (s.enterFault e) := rfl

/-- The fetch reads a word exactly when both its bytes are inside memory (30_encoding R84). -/
theorem fetch_eq (s : State) :
    fetch s =
      if s.pc.toNat + 2 ≤ Config.memSize then .ok (concat (s.mem.read s.pc.toNat) (s.mem.read (s.pc.toNat + 1)))
      else .error (.addressError (max s.pc.toNat Config.memSize)) := by
  simp only [fetch]
  by_cases h : s.pc.toNat + 2 ≤ Config.memSize
  · rw [(firstBadAddress_none s.pc.toNat 2).mpr (Or.inr h), if_pos h]
  · rw [(firstBadAddress_some s.pc.toNat 2 (max s.pc.toNat Config.memSize)).mpr (by omega), if_neg h]

/-- Everything one call of `step` can do: nothing, complete a wait, enter a fault of the fetch or of the decoder, or perform the
decoded instruction. -/
theorem step_cases (s : State) :
    (step s = .next s ∧ (s.run = .unloaded ∨ s.run = .stopped ∨ (∃ e, s.run = .faulted e) ∨
      ∃ x, s.run = .awaitingKey x ∧ s.keyLatch = none)) ∨
    (∃ x k, s.run = .awaitingKey x ∧ s.keyLatch = some k ∧
      step s = .next (((s.setV x (keyByte k)).setKeyLatch none).setRun .running)) ∨
    (∃ e, s.run = .running ∧ fetch s = .error e ∧ step s = .next (s.enterFault e)) ∨
    (∃ w e, s.run = .running ∧ fetch s = .ok w ∧ decode w = .error e ∧ step s = .next (s.enterFault (illegalWord e))) ∨
    (∃ w i, s.run = .running ∧ fetch s = .ok w ∧ decode w = .ok i ∧ step s = exec i s) := by
  cases hr : s.run with
  | unloaded => exact Or.inl ⟨by simp [step, cycle, hr], by simp⟩
  | faulted e => exact Or.inl ⟨by simp [step, cycle, hr], by simp⟩
  | stopped => exact Or.inl ⟨by simp [step, cycle, hr], by simp⟩
  | awaitingKey x =>
    cases hl : s.keyLatch with
    | none => exact Or.inl ⟨by simp [step, cycle, hr, completeWait, hl], by simp⟩
    | some k => exact Or.inr (Or.inl ⟨x, k, rfl, rfl, by simp [step, cycle, hr, completeWait, hl]⟩)
  | running =>
    cases hf : fetch s with
    | error e => exact Or.inr (Or.inr (Or.inl ⟨e, rfl, rfl, by simp [step, cycle, hr, executeOne, hf]⟩))
    | ok w =>
      cases hd : decode w with
      | error e =>
        exact Or.inr (Or.inr (Or.inr (Or.inl ⟨w, e, rfl, rfl, hd, by simp [step, cycle, hr, executeOne, hf, hd]⟩)))
      | ok i => exact Or.inr (Or.inr (Or.inr (Or.inr ⟨w, i, rfl, rfl, hd, by simp [step, cycle, hr, executeOne, hf, hd]⟩)))

/-- A timer's tick on its number (60_exceptions R245). -/
theorem tickDown_toNat (b : Byte) : (tickDown b).toNat = b.toNat - 1 := by
  revert b
  decide

theorem length_font (font : Font) : font.toList.length = Config.fontSize := by
  simp [Config.fontSize]

/-- A load succeeds exactly when its preconditions hold (70_reset R262, R263). -/
theorem loadCheck_none (len programBase fontBase : Nat) :
    loadCheck len programBase fontBase = none ↔
      0x200 ≤ programBase ∧ fontBase + Config.fontSize ≤ 0x200 ∧ programBase + len ≤ Config.memSize := by
  simp only [loadCheck]
  split
  · simp
    omega
  · split <;> simp <;> omega

/-- A load whose bases are wrong fails with InvalidBase, whatever its length (70_reset R263). -/
theorem loadCheck_invalidBase (len programBase fontBase : Nat)
    (h : programBase < 0x200 ∨ fontBase + Config.fontSize > 0x200) :
    loadCheck len programBase fontBase = some .invalidBase := by
  rw [loadCheck, if_pos h]

/-- A load whose bases are right and whose program is too long fails with OversizedProgram (70_reset R263). -/
theorem loadCheck_oversizedProgram (len programBase fontBase : Nat) (hp : 0x200 ≤ programBase)
    (hf : fontBase + Config.fontSize ≤ 0x200) (h : Config.memSize < programBase + len) :
    loadCheck len programBase fontBase = some .oversizedProgram := by
  rw [loadCheck, if_neg (by omega), if_pos h]

/-- Every byte of memory after a successful load: the program, the font, else 0 (70_reset R264). -/
theorem read_loadedMemory (font : Font) (program : List Byte) (programBase fontBase a : Nat) :
    (loadedMemory font program programBase fontBase).read a =
      if programBase ≤ a ∧ a < programBase + program.length then program.getD (a - programBase) 0#8
      else if fontBase ≤ a ∧ a < fontBase + Config.fontSize then font.toList.getD (a - fontBase) 0#8
      else 0#8 := by
  simp only [loadedMemory, Memory.read_writeBlock, length_font, Memory.read_nil, Memory.unlisted]

/-- A successful load leaves memory in its canonical form. -/
theorem wf_loadedMemory (font : Font) (program : List Byte) (programBase fontBase : Nat)
    (hf : fontBase + Config.fontSize ≤ Config.memSize) (hp : programBase + program.length ≤ Config.memSize) :
    (loadedMemory font program programBase fontBase).wf :=
  Memory.wf_writeBlock _ _ _ hp (Memory.wf_writeBlock _ _ _ (by rw [length_font]; exact hf) Memory.wf_nil)

end Sys2Proof.Machine
end

