-- ==== Sys2Proof/Laws/PerInstr.lean ====
section
/-! SUPPORT. One lemma per instruction: the top nibble of its word is its family (30_encoding R72, R75). -/

namespace Sys2Proof.Laws.FamilyNibble

/-- The word of an instruction lies in the instruction's family. -/
def Statement (i : Instr) : Prop := fieldF (encode i) = i.family

theorem of_addr (f : Nat) (nnn : Addr) (hf : f < 16) : fieldF (encodeAddr f nnn) = BitVec.ofNat 4 f := by
  have := nnn.isLt
  apply BitVec.eq_of_toNat_eq
  rw [fieldF_toNat, encodeAddr_toNat f nnn hf, BitVec.toNat_ofNat]
  omega

theorem of_regImm (f : Nat) (x : Reg) (nn : Nat) (hf : f < 16) (hn : nn < 256) :
    fieldF (encodeRegImm f x nn) = BitVec.ofNat 4 f := by
  have := x.isLt
  apply BitVec.eq_of_toNat_eq
  rw [fieldF_toNat, encodeRegImm_toNat f x nn hf hn, BitVec.toNat_ofNat]
  omega

theorem of_regReg (f : Nat) (x y : Reg) (n : Nat) (hf : f < 16) (hn : n < 16) :
    fieldF (encodeRegReg f x y n) = BitVec.ofNat 4 f := by
  have := x.isLt
  have := y.isLt
  apply BitVec.eq_of_toNat_eq
  rw [fieldF_toNat, encodeRegReg_toNat f x y n hf hn, BitVec.toNat_ofNat]
  omega

theorem cls : Statement .cls := by unfold Statement; decide

theorem ret : Statement .ret := by unfold Statement; decide

theorem sys (nnn : Addr) : Statement (.sys nnn) := of_addr _ nnn (by decide)

theorem jp (nnn : Addr) : Statement (.jp nnn) := of_addr _ nnn (by decide)

theorem call (nnn : Addr) : Statement (.call nnn) := of_addr _ nnn (by decide)

theorem seImm (x : Reg) (nn : Byte) : Statement (.seImm x nn) := of_regImm _ x _ (by decide) nn.isLt

theorem sneImm (x : Reg) (nn : Byte) : Statement (.sneImm x nn) := of_regImm _ x _ (by decide) nn.isLt

theorem seReg (x : Reg) (y : Reg) : Statement (.seReg x y) := of_regReg _ x y _ (by decide) (by decide)

theorem ldImm (x : Reg) (nn : Byte) : Statement (.ldImm x nn) := of_regImm _ x _ (by decide) nn.isLt

theorem addImm (x : Reg) (nn : Byte) : Statement (.addImm x nn) := of_regImm _ x _ (by decide) nn.isLt

theorem ldReg (x : Reg) (y : Reg) : Statement (.ldReg x y) := of_regReg _ x y _ (by decide) (by decide)

theorem orReg (x : Reg) (y : Reg) : Statement (.orReg x y) := of_regReg _ x y _ (by decide) (by decide)

theorem andReg (x : Reg) (y : Reg) : Statement (.andReg x y) := of_regReg _ x y _ (by decide) (by decide)

theorem xorReg (x : Reg) (y : Reg) : Statement (.xorReg x y) := of_regReg _ x y _ (by decide) (by decide)

theorem addReg (x : Reg) (y : Reg) : Statement (.addReg x y) := of_regReg _ x y _ (by decide) (by decide)

theorem subReg (x : Reg) (y : Reg) : Statement (.subReg x y) := of_regReg _ x y _ (by decide) (by decide)

theorem shr (x : Reg) (y : Reg) : Statement (.shr x y) := of_regReg _ x y _ (by decide) (by decide)

theorem subn (x : Reg) (y : Reg) : Statement (.subn x y) := of_regReg _ x y _ (by decide) (by decide)

theorem shl (x : Reg) (y : Reg) : Statement (.shl x y) := of_regReg _ x y _ (by decide) (by decide)

theorem sneReg (x : Reg) (y : Reg) : Statement (.sneReg x y) := of_regReg _ x y _ (by decide) (by decide)

theorem ldI (nnn : Addr) : Statement (.ldI nnn) := of_addr _ nnn (by decide)

theorem jpV0 (nnn : Addr) : Statement (.jpV0 nnn) := of_addr _ nnn (by decide)

theorem rnd (x : Reg) (nn : Byte) : Statement (.rnd x nn) := of_regImm _ x _ (by decide) nn.isLt

theorem drw (x : Reg) (y : Reg) (n : BitVec 4) : Statement (.drw x y n) := of_regReg _ x y _ (by decide) n.isLt

theorem skp (x : Reg) : Statement (.skp x) := of_regImm _ x _ (by decide) (by decide)

theorem sknp (x : Reg) : Statement (.sknp x) := of_regImm _ x _ (by decide) (by decide)

theorem ldVxDt (x : Reg) : Statement (.ldVxDt x) := of_regImm _ x _ (by decide) (by decide)

theorem ldVxK (x : Reg) : Statement (.ldVxK x) := of_regImm _ x _ (by decide) (by decide)

theorem ldDtVx (x : Reg) : Statement (.ldDtVx x) := of_regImm _ x _ (by decide) (by decide)

theorem ldStVx (x : Reg) : Statement (.ldStVx x) := of_regImm _ x _ (by decide) (by decide)

theorem addI (x : Reg) : Statement (.addI x) := of_regImm _ x _ (by decide) (by decide)

theorem ldF (x : Reg) : Statement (.ldF x) := of_regImm _ x _ (by decide) (by decide)

theorem ldB (x : Reg) : Statement (.ldB x) := of_regImm _ x _ (by decide) (by decide)

theorem ldMemVx (x : Reg) : Statement (.ldMemVx x) := of_regImm _ x _ (by decide) (by decide)

theorem ldVxMem (x : Reg) : Statement (.ldVxMem x) := of_regImm _ x _ (by decide) (by decide)

end Sys2Proof.Laws.FamilyNibble
end

