-- ==== Sys2Proof/Tests/Slice0.lean ====
section
/-! SUPPORT. The model's own tests: ill-formed terms, words written out from the spec's patterns, one or two steps an instruction
with results from spec/95_test_vectors, and for each obligation with hypotheses a state that meets them. -/

namespace Sys2Proof.Tests

open Sys2Proof.Machine

/-- A running block at 0x200 with font base 0x050: the common start state of 95_test_vectors without its memory. -/
def start : State := { State.reset with run := .running, pc := 0x200#16, fontBase := 0x050#16 }

/-- One step of the word at PC. -/
def run (w : Nat) (s : State) : State :=
  match step (s.withFetchWord 16 w) with
  | .next t => t
  | .fault _ => s
  | .refused _ => s

/-- One port call. -/
def call (p : Port) (s : State) : State := runPorts [p] s

/-! ### Well-formedness: the one check refuses both of its words (30_encoding R76) -/

theorem test_wf_sys_not_cls : (Instr.sys 0x0E0).wellFormed = false := by decide
theorem test_wf_sys_not_ret : (Instr.sys 0x0EE).wellFormed = false := by decide
theorem test_wf_sys_zero : (Instr.sys 0x000).wellFormed = true := by decide

/-! ### Decoding: a word of every constructor, bit by bit from its pattern in 30_encoding R75 -/

theorem test_decode_family_0 :
    decode 0b0000000011100000#16 = .ok .cls ∧ decode 0b0000000011101110#16 = .ok .ret ∧
    decode 0b0000001100000000#16 = .ok (.sys 0x300) := by decide
theorem test_decode_jumps :
    decode 0b0001001000110100#16 = .ok (.jp 0x234) ∧ decode 0b0010101010111100#16 = .ok (.call 0xABC) ∧
    decode 0b1011111100000001#16 = .ok (.jpV0 0xF01) := by decide
theorem test_decode_skips :
    decode 0b0011000101000010#16 = .ok (.seImm 1 0x42) ∧ decode 0b0100000101000010#16 = .ok (.sneImm 1 0x42) ∧
    decode 0b0101001000110000#16 = .ok (.seReg 2 3) ∧ decode 0b1001001000110000#16 = .ok (.sneReg 2 3) := by decide
theorem test_decode_immediates :
    decode 0b0110101010011011#16 = .ok (.ldImm 10 0x9B) ∧ decode 0b0111000111111111#16 = .ok (.addImm 1 0xFF) ∧
    decode 0b1100001100001111#16 = .ok (.rnd 3 0x0F) ∧ decode 0b1010111111111111#16 = .ok (.ldI 0xFFF) := by decide
theorem test_decode_family_8 :
    decode 0b1000000100100000#16 = .ok (.ldReg 1 2) ∧ decode 0b1000000100100001#16 = .ok (.orReg 1 2) ∧
    decode 0b1000000100100010#16 = .ok (.andReg 1 2) ∧ decode 0b1000000100100011#16 = .ok (.xorReg 1 2) ∧
    decode 0b1000000100100100#16 = .ok (.addReg 1 2) ∧ decode 0b1000000100100101#16 = .ok (.subReg 1 2) ∧
    decode 0b1000000100100110#16 = .ok (.shr 1 2) ∧ decode 0b1000000100100111#16 = .ok (.subn 1 2) ∧
    decode 0b1000000100101110#16 = .ok (.shl 1 2) := by decide
theorem test_decode_draw_keys :
    decode 0b1101000000010010#16 = .ok (.drw 0 1 2) ∧ decode 0b1110010010011110#16 = .ok (.skp 4) ∧
    decode 0b1110010010100001#16 = .ok (.sknp 4) := by decide
theorem test_decode_family_f :
    decode 0b1111000100000111#16 = .ok (.ldVxDt 1) ∧ decode 0b1111000000001010#16 = .ok (.ldVxK 0) ∧
    decode 0b1111000000010101#16 = .ok (.ldDtVx 0) ∧ decode 0b1111001100011000#16 = .ok (.ldStVx 3) ∧
    decode 0b1111010100011110#16 = .ok (.addI 5) ∧ decode 0b1111000000101001#16 = .ok (.ldF 0) ∧
    decode 0b1111101000110011#16 = .ok (.ldB 10) ∧ decode 0b1111001001010101#16 = .ok (.ldMemVx 2) ∧
    decode 0b1111001001100101#16 = .ok (.ldVxMem 2) := by decide
/-- 95_test_vectors L2.1 19, 22; L2.2 31, 32; L2.4 6; L2.6 4, 5. -/
theorem test_decode_illegal :
    decode 0x523F = .error (.illegalInstruction 0x523F) ∧ decode 0x9231 = .error (.illegalInstruction 0x9231) ∧
    decode 0x8128 = .error (.illegalInstruction 0x8128) ∧ decode 0x812F = .error (.illegalInstruction 0x812F) ∧
    decode 0xE49F = .error (.illegalInstruction 0xE49F) ∧ decode 0xF000 = .error (.illegalInstruction 0xF000) := by decide
theorem test_decodeTableWord : decodeTableWord 16 0xD012 = some (.drw 0 1 2) ∧ decodeTableWord 16 0x5001 = none := by decide
theorem test_encode_words :
    encode (.drw 0 1 2) = 0xD012 ∧ encode (.shl 1 2) = 0x812E ∧ encode (.ldMemVx 15) = 0xFF55 ∧ encode (.sys 0x0E1) = 0x00E1 := by
  decide

/-! ### Control transfer (95_test_vectors L2.1) -/

theorem test_jp : (run 0x1234 start).pc = 0x234 := by decide
theorem test_sys_zero_jumps : (run 0x0000 start).pc = 0x000 ∧ (run 0x0300 start).stack = [] := by decide
theorem test_call_pushes : (run 0x2ABC start).pc = 0xABC ∧ (run 0x2ABC start).stack = [0x202] := by decide
theorem test_call_overflow :
    (run 0x2300 (start.setStack (List.replicate 16 0x202))).run = .faulted .stackOverflow ∧
    (run 0x2300 (start.setStack (List.replicate 16 0x202))).pc = 0x200 := by decide
theorem test_ret_pops_top : (run 0x00EE (start.setStack [0x20A, 0x206])).pc = 0x20A ∧
    (run 0x00EE (start.setStack [0x20A, 0x206])).stack = [0x206] := by decide
theorem test_ret_underflow : (run 0x00EE start).run = .faulted .stackUnderflow ∧ (run 0x00EE start).pc = 0x200 := by decide
theorem test_seImm : (run 0x3142 (start.setV 1 0x42)).pc = 0x204 ∧ (run 0x3142 (start.setV 1 0x41)).pc = 0x202 := by decide
theorem test_sneImm : (run 0x4142 (start.setV 1 0x42)).pc = 0x202 ∧ (run 0x4142 start).pc = 0x204 := by decide
theorem test_seReg : (run 0x5230 ((start.setV 2 0x10).setV 3 0x11)).pc = 0x202 ∧ (run 0x5550 start).pc = 0x204 := by decide
theorem test_sneReg : (run 0x9230 ((start.setV 2 0x10).setV 3 0x11)).pc = 0x204 ∧ (run 0x9550 start).pc = 0x202 := by decide
theorem test_jpV0_past_memory : (run 0xBF01 (start.setV 0 0xFF)).pc = 0x1000 ∧
    (call .step (run 0xBF01 (start.setV 0 0xFF))).run = .faulted (.addressError 0x1000) := by decide
theorem test_skip_at_top : (run 0x3100 (start.setPc 0xFFE)).pc = 0x1002 := by decide

/-! ### ALU (95_test_vectors L2.2) -/

theorem test_ldImm : (run 0x6A9B start).getV 10 = 0x9B := by decide
theorem test_addImm_wraps_no_flag : (run 0x7101 (start.setV 1 0xFF)).getV 1 = 0x00 ∧ (run 0x7101 (start.setV 1 0xFF)).getV 15 = 0x00 := by
  decide
theorem test_ldReg : (run 0x8120 (start.setV 2 0x33)).getV 1 = 0x33 := by decide
theorem test_orReg_keeps_vf : (run 0x8011 (((start.setV 0 0xF0).setV 1 0x0F).setV 15 5)).getV 0 = 0xFF ∧
    (run 0x8011 (((start.setV 0 0xF0).setV 1 0x0F).setV 15 5)).getV 15 = 5 := by decide
theorem test_andReg : (run 0x8012 ((start.setV 0 0xF3).setV 1 0x3F)).getV 0 = 0x33 := by decide
theorem test_xorReg_same : (run 0x8003 (start.setV 0 0xAA)).getV 0 = 0x00 := by decide
theorem test_addReg_carry : (run 0x8014 ((start.setV 0 0x80).setV 1 0x80)).getV 0 = 0x00 ∧
    (run 0x8014 ((start.setV 0 0x80).setV 1 0x80)).getV 15 = 1 := by decide
theorem test_addReg_flag_wins : (run 0x8F14 ((start.setV 15 0x10).setV 1 0x01)).getV 15 = 0 := by decide
theorem test_subReg_wraps : (run 0x8015 ((start.setV 0 1).setV 1 2)).getV 0 = 0xFF ∧
    (run 0x8015 ((start.setV 0 1).setV 1 2)).getV 15 = 0 := by decide
theorem test_subReg_equal : (run 0x8015 ((start.setV 0 5).setV 1 5)).getV 15 = 1 := by decide
theorem test_shr_source_vy : (run 0x8126 ((start.setV 2 0x05).setV 1 0xAA)).getV 1 = 0x02 ∧
    (run 0x8126 ((start.setV 2 0x05).setV 1 0xAA)).getV 15 = 1 := by decide
theorem test_subn_wraps : (run 0x8017 ((start.setV 0 2).setV 1 1)).getV 0 = 0xFF ∧
    (run 0x8017 ((start.setV 0 2).setV 1 1)).getV 15 = 0 := by decide
theorem test_shl_top_bit : (run 0x812E (start.setV 2 0x80)).getV 1 = 0x00 ∧ (run 0x812E (start.setV 2 0x80)).getV 15 = 1 := by decide
theorem test_rnd_mask_zero (s : State) : ∃ t, exec (.rnd 3 0x00) s = .next t ∧ t.getV 3 = 0x00 ∧ t.draws = s.draws + 1 :=
  ⟨_, rfl, by simp, by simp⟩

/-! ### Index register and memory (95_test_vectors L2.3) -/

theorem test_ldI : (run 0xAFFF start).i = 0xFFF := by decide
theorem test_addI_wraps_at_16_bits : (run 0xF01E ((start.setI 0xFFFF).setV 0 1)).i = 0x0000 ∧
    (run 0xF01E ((start.setI 0x0FFF).setV 0 1)).i = 0x1000 := by decide
theorem test_ldF_unmasked : (run 0xF029 (start.setV 0 0x0F)).i = 0x09B ∧ (run 0xF029 (start.setV 0 0xFF)).i = 0x54B := by decide
theorem test_ldB_digits : ((run 0xF333 ((start.setV 3 0x9B).setI 0x300)).mem.readBlock 0x300 3) = [1, 5, 5] := by decide
theorem test_ldB_fault : (run 0xF033 ((start.setV 0 0x9B).setI 0xFFE)).run = .faulted (.addressError 0x1000) ∧
    (run 0xF033 ((start.setV 0 0x9B).setI 0xFFE)).mem.readBlock 0xFFE 2 = [0, 0] := by decide
theorem test_ldMemVx : (run 0xF255 ((((start.setI 0x300).setV 0 1).setV 1 2).setV 2 3)).mem.readBlock 0x300 4 = [1, 2, 3, 0] := by decide
theorem test_ldMemVx_edge : (run 0xF055 ((start.setI 0xFFF).setV 0 0x77)).mem.read 0xFFF = 0x77 ∧
    (run 0xF155 (start.setI 0xFFF)).run = .faulted (.addressError 0x1000) := by decide
theorem test_ldVxMem : (run 0xF265 ((start.setI 0x300).setMem [(0x300, 1), (0x301, 5), (0x302, 5), (0x303, 7)])).v.toList.take 4 =
    [1, 5, 5, 0] := by decide
theorem test_ldVxMem_reaches_vf : (run 0xFF65 ((start.setI 0x300).setMem [(0x30F, 0xAB)])).getV 15 = 0xAB := by decide
theorem test_write_unlisted_removes : Memory.write [(5, 1), (7, 2)] 5 0 = [(7, 2)] ∧ Memory.write [(5, 1)] 3 9 = [(3, 9), (5, 1)] := by
  decide

/-! ### Display (95_test_vectors L2.5) -/

theorem test_cls : (run 0x00E0 (start.setFb (Framebuffer.blank.flip 3 4))).fb.pixel 3 4 = false := by decide
/-- Vector 3: horizontal wrap from column 60. -/
theorem test_drw_wraps : (run 0xD011 (((start.setV 0 60).setI 0x300).setMem [(0x300, 0xFF)])).fb[0].toList.take 5 =
    [true, true, true, true, false] := by decide
/-- Vector 6: a pixel that was 1 goes to 0 and collides. -/
theorem test_drw_collides :
    (run 0xD011 (((start.setFb (Framebuffer.blank.flip 0 3)).setI 0x300).setMem [(0x300, 0xFF)])).fb[0].toList.take 8 =
      [true, true, true, false, true, true, true, true] ∧
    (run 0xD011 (((start.setFb (Framebuffer.blank.flip 0 3)).setI 0x300).setMem [(0x300, 0xFF)])).getV 15 = 1 := by decide

/-! ### Keys and timers (95_test_vectors L2.4) -/

theorem test_skp : (run 0xE49E ((start.setV 4 7).setKeyFlag 7 true)).pc = 0x204 ∧ (run 0xE49E (start.setV 4 7)).pc = 0x202 := by decide
theorem test_skp_no_key : (run 0xE49E (start.setV 4 0x10)).run = .faulted (.keyIndexError 0x10) := by decide
theorem test_sknp : (run 0xE4A1 (start.setV 4 15)).pc = 0x204 ∧ (run 0xE4A1 (start.setV 4 0xFF)).run = .faulted (.keyIndexError 0xFF) := by
  decide
theorem test_ldVxDt : (run 0xF107 (start.setDt 0x3C)).getV 1 = 0x3C := by decide
theorem test_ldDtVx : (run 0xF015 ((start.setDt 5).setV 0 0)).dt = 0 := by decide
theorem test_ldStVx : (run 0xF318 (start.setV 3 0x10)).st = 0x10 ∧ soundActive (run 0xF318 (start.setV 3 0x10)) = true := by decide
theorem test_ldVxK : (run 0xF30A start).pc = 0x202 ∧ (run 0xF30A start).run = .awaitingKey 3 := by decide
/-- Vector 16: the first press is kept. -/
theorem test_first_press_kept :
    (runPorts [.setKey 2 true, .setKey 9 true, .step] (start.setRun (.awaitingKey 3))).getV 3 = 2 := by decide

/-! ### Ports (95_test_vectors L1.13, L2.4, L2.6) -/

theorem test_not_loaded : stepResult State.reset = .err .notLoaded ∧ step State.reset = .next State.reset := ⟨by decide, rfl⟩
theorem test_illegal_word : (run 0x5001 start).run = .faulted (.illegalInstruction 0x5001) := by decide
theorem test_odd_pc : (run 0x6011 (start.setPc 0x201)).getV 0 = 0x11 ∧ (run 0x6011 (start.setPc 0x201)).pc = 0x203 := by decide
theorem test_tick_floor : (call .tickTimers (start.setSt 1)).dt = 0 ∧ (call .tickTimers (start.setSt 1)).st = 0 := by decide
theorem test_terminate : (call .terminate start).run = .stopped ∧ stepResult (call .terminate start) = .stopped := by decide
theorem test_load_bases : loadResult [] 0x1FF 0x050 = .err .invalidBase ∧ loadResult [] 0x200 0x1B1 = .err .invalidBase ∧
    loadResult [] 0x200 0x1B0 = .ok := by decide
theorem test_load_size : loadCheck 3584 0x200 0x050 = none ∧ loadCheck 3585 0x200 0x050 = some .oversizedProgram ∧
    loadCheck 4000 0x1FF 0x050 = some .invalidBase := by decide
/-- Program 6 of 95_test_vectors: glyph 7 is at font_base + 35. -/
theorem test_load_font : (loadedMemory Config.font [] 0x200 0x050).read 0x073 = 0xF0 ∧
    (loadedMemory Config.font [] 0x200 0x050).read 0x074 = 0x10 := by
  simp only [read_loadedMemory]
  decide

/-! ### Every obligation's hypotheses are met: `witness_<Name>` -/

/-- A running block with a word at 0x200. -/
def withWord (w : Nat) (s : State) : State := s.withFetchWord 16 w

theorem witness_DecodeOfEncodeIsTheInstruction : (Instr.sys 0x0E1).wellFormed = true := by decide
theorem witness_EncodeOfDecodeIsTheWord : decode 0x00E1 = .ok (.sys 0x0E1) := by decide
theorem witness_StepRunsDecodedInstruction :
    (withWord 0x1234 (start.setPc 0xFFE)).run = .running ∧ (withWord 0x1234 (start.setPc 0xFFE)).pc.toNat + 1 < 0x1000 ∧
    decodeBytes ((withWord 0x1234 (start.setPc 0xFFE)).mem.read 0xFFE) ((withWord 0x1234 (start.setPc 0xFFE)).mem.read 0xFFF) =
      .ok (.jp 0x234) := by decide
theorem witness_FetchOutsideMemoryFaults :
    (start.setPc 0xFFF).run = .running ∧ 0xFFF ≤ (start.setPc 0xFFF).pc.toNat ∧ (start.setPc 0x1000).run = .running ∧
    0xFFF ≤ (start.setPc 0x1000).pc.toNat := by decide
theorem witness_IllegalWordFaults :
    (withWord 0x5001 start).run = .running ∧ (withWord 0x5001 start).pc.toNat + 1 < 0x1000 ∧
    0x5001#16 = concat ((withWord 0x5001 start).mem.read 0x200) ((withWord 0x5001 start).mem.read 0x201) ∧
    ∀ row ∈ opcodeMap, 0x5001#16 &&& row.2 ≠ row.1 :=
  ⟨by decide, by decide, by decide, by simp [opcodeMap]⟩
theorem witness_QuiescentStepsChangeNothing :
    State.reset.run = .unloaded ∧ (start.enterFault .stackUnderflow).run = .faulted .stackUnderflow ∧
    (start.setRun .stopped).run = .stopped ∧ (start.setRun (.awaitingKey 3)).run = .awaitingKey 3 ∧
    (start.setRun (.awaitingKey 3)).keyLatch = none := by decide
theorem witness_LatchedKeyCompletesTheWait :
    ((start.setRun (.awaitingKey 15)).setKeyLatch (some 7)).run = .awaitingKey 15 ∧
    ((start.setRun (.awaitingKey 15)).setKeyLatch (some 7)).keyLatch = some 7 := by decide
theorem witness_EveryErrorIsPrecise : start.run = .running := by decide
theorem reset_inv : StateInv State.reset := ⟨Memory.wf_nil, by decide, by decide, fun h => absurd rfl h⟩
theorem witness_StepKeepsTheInvariant : StateInv State.reset ∧ step State.reset = .next State.reset := ⟨reset_inv, rfl⟩
theorem witness_PortsKeepTheInvariant : ∃ t, StateInv State.reset ∧ transact (.load [0x00, 0xEE] 0x200 0x050) State.reset = .next t :=
  ⟨_, reset_inv, rfl⟩
theorem witness_FaultedStatesStayExplained :
    ∃ t, FaultExplained ((withWord 0x00EE start).enterFault .stackUnderflow) ∧
      transact .tickTimers ((withWord 0x00EE start).enterFault .stackUnderflow) = .next t :=
  ⟨_, ⟨rfl, by decide⟩, rfl⟩
theorem witness_SameBytesSameMemory :
    Memory.wf [(5, 1), (7, 2)] ∧ Memory.wf (Memory.write [(7, 2)] 5 1) ∧
    ∀ a, Memory.read [(5, 1), (7, 2)] a = (Memory.write [(7, 2)] 5 1).read a := by
  refine ⟨by decide, by decide, fun a => ?_⟩
  rw [show Memory.write [(7, 2)] 5 1 = [(5, 1), (7, 2)] from by decide]
theorem witness_OnlyLoadAndBlockStoresWriteMemory :
    (∃ t, exec .cls start = .next t) ∧ (∀ x, Instr.cls ≠ .ldB x) ∧ (∀ x, Instr.cls ≠ .ldMemVx x) ∧
    Port.tickTimers.isLoad = false ∧ Port.tickTimers ≠ .step ∧ (∃ t, transact .tickTimers start = .next t) ∧
    step State.reset = .next State.reset ∧ step (start.setPc 0xFFF) = .next ((start.setPc 0xFFF).enterFault (.addressError 0x1000)) ∧
    step (withWord 0x5001 start) = .next ((withWord 0x5001 start).enterFault (.illegalInstruction 0x5001)) ∧
    (∃ t, exec (.drw 0 1 0) start = .next t) :=
  ⟨⟨_, rfl⟩, by decide, by decide, by decide, by decide, ⟨_, rfl⟩, rfl, rfl, rfl, ⟨_, rfl⟩⟩
/-- FX33 and FX55 with their last byte at 0xFFF, and a register destination. -/
theorem witness_InstructionsWriteOnlyTheirParts :
    (∃ t, exec (.ldB 0) (start.setI 0xFFD) = .next t) ∧ (∃ t, exec (.ldMemVx 15) (start.setI 0xFF0) = .next t) ∧
    (0xFFC < (start.setI 0xFFD).i.toNat ∧ (start.setI 0xFF0).i.toNat + (Instr.ldMemVx 15).dataBytes ≤ 0x1000) ∧
    ∃ t, exec (.ldImm 15 0xFF) start = .next t :=
  ⟨⟨_, rfl⟩, ⟨_, rfl⟩, by decide, ⟨_, rfl⟩⟩
theorem witness_InstructionsReadOnlyTheirRegisters : (Instr.shr 1 2).readsV 1 = false := by decide
theorem witness_CallPushesOrOverflows :
    (start.setStack (List.replicate 15 0x202)).stack.length < Config.stackDepth ∧
    (start.setStack (List.replicate 16 0x202)).stack.length = Config.stackDepth := by decide
theorem witness_ReturnPopsOrUnderflows : (start.setStack [0x206]).stack = 0x206 :: [] ∧ start.stack = [] := by decide
theorem witness_RegisterSkips : 0 < 1 ∧ 1 < 16 ∧ 0 < 15 ∧ 15 < 16 ∧ 0x5000 ∈ [0x5000, 0x9000] ∧ 0x9000 ∈ [0x5000, 0x9000] := by decide
/-- A call at 0x200 of a routine at 0x300 that returns at once. -/
def callReturn : State := start.setMem [(0x200, 0x23), (0x301, 0xEE)]
theorem witness_CallThenReturnComesBack :
    callReturn.run = .running ∧ callReturn.pc.toNat + 1 < 0x1000 ∧ (0x300 : Addr).toNat + 1 < 0x1000 ∧
    decodeBytes (callReturn.mem.read callReturn.pc.toNat) (callReturn.mem.read (callReturn.pc.toNat + 1)) = .ok (.call 0x300) ∧
    concat (callReturn.mem.read (0x300 : Addr).toNat) (callReturn.mem.read ((0x300 : Addr).toNat + 1)) = 0x00EE ∧
    callReturn.stack.length < Config.stackDepth := by decide
theorem witness_BcdStoresThreeDigits :
    (start.setI 0xFFD).i.toNat + 2 < 0x1000 ∧ 0x1000 ≤ (start.setI 0xFFE).i.toNat + 2 ∧ 0x1000 ≤ (start.setI 0x1000).i.toNat + 2 := by
  decide
theorem witness_BlockStoreWritesV0ToVx :
    (start.setI 0xFFF).i.toNat + (0 : Reg).val < 0x1000 ∧ 0x1000 ≤ (start.setI 0xFFF).i.toNat + (1 : Reg).val ∧
    0x1000 ≤ (start.setI 0x1000).i.toNat + (0 : Reg).val := by decide
theorem witness_BlockLoadReadsV0ToVx :
    (start.setI 0xFF0).i.toNat + (15 : Reg).val < 0x1000 ∧ 0x1000 ≤ (start.setI 0xFF1).i.toNat + (15 : Reg).val := by decide
theorem witness_StoreThenLoadRoundTrip : (start.setI 0xFF0).i.toNat + (15 : Reg).val < 0x1000 := by decide
theorem witness_StoredCodeIsFetchedNext :
    (start.setI 0x200).i.toNat + (3 : Reg).val < 0x1000 ∧ (3 : Reg).val = (2 : Reg).val + 1 ∧ (3 : Reg) ≤ 3 ∧
    (start.setI 0x200).pc.toNat + 2 = (start.setI 0x200).i.toNat + (2 : Reg).val := by decide
theorem witness_DrawFlipsTheCoveredPixels :
    ((0 : BitVec 4) = 0) ∧ ((start.setI 0xFFF).i.toNat + (1 : BitVec 4).toNat ≤ 0x1000) ∧ ((2 : BitVec 4) ≠ 0) ∧
    (0x1000 < (start.setI 0xFFF).i.toNat + (2 : BitVec 4).toNat) := by decide
/-- The sprite 0x80 at (0, 0). -/
def dot : State := (start.setI 0x300).setMem [(0x300, 0x80)]
theorem witness_sprite_covers_and_not : SpriteCovers dot 0 1 1 0 0 ∧ ¬SpriteCovers dot 0 1 0 0 0 :=
  ⟨⟨0, 0, by decide, by decide, by decide, by decide, by decide⟩, fun ⟨_, _, h, _⟩ => absurd h (Nat.not_lt_zero _)⟩
theorem witness_DrawingTwiceRestoresTheFramebuffer :
    dot.i.toNat + (1 : BitVec 4).toNat ≤ 0x1000 ∧ ∃ t, exec (.drw 0 1 1) dot = .next t ∧ t.getV 0 = dot.getV 0 ∧ t.getV 1 = dot.getV 1 :=
  ⟨by decide, _, rfl, by decide, by decide⟩
theorem witness_KeySkipsFollowTheFlag :
    ((start.setV 4 15).getV 4).toNat = (15 : Key).val ∧ 15 < ((start.setV 4 16).getV 4).toNat := by decide
theorem witness_HeldKeysDoNotEndTheWait :
    ((start.setRun (.awaitingKey 3)).setKeyFlag 5 true).run = .awaitingKey 3 ∧
    ((start.setRun (.awaitingKey 3)).setKeyFlag 5 true).keyLatch = none ∧
    ∀ p ∈ [Port.step, Port.setKey 5 true], p = .step ∨ p = .tickTimers ∨ p = .framebufferSnapshot ∨
      ∃ k : Key, p = .setKey k.val true ∧ ((start.setRun (.awaitingKey 3)).setKeyFlag 5 true).keyFlag k = true := by
  refine ⟨by decide, by decide, fun p hp => ?_⟩
  rcases List.mem_cons.mp hp with rfl | hp
  · exact Or.inl rfl
  · rcases List.mem_cons.mp hp with rfl | hp
    · exact Or.inr (Or.inr (Or.inr ⟨5, rfl, by decide⟩))
    · exact absurd hp (by simp)
theorem witness_SetKeyWritesTheFlagAndLatches :
    (∃ x, (start.setRun (.awaitingKey 3)).run = .awaitingKey x) ∧ (start.setRun (.awaitingKey 3)).keyFlag 7 = false ∧
    (start.setRun (.awaitingKey 3)).keyLatch = none ∧ (∀ x, start.run ≠ .awaitingKey x) ∧ 15 < 16 :=
  ⟨⟨3, rfl⟩, by decide, rfl, fun _ h => (by cases h), by decide⟩
theorem witness_TerminateStopsCleanly :
    start.run = .running ∧ (∃ x, (start.setRun (.awaitingKey 3)).run = .awaitingKey x) ∧ State.reset.run = .unloaded ∧
    (∃ e, (start.enterFault .stackUnderflow).run = .faulted e) ∧ (start.setRun .stopped).run = .stopped :=
  ⟨rfl, ⟨3, rfl⟩, rfl, ⟨_, rfl⟩, rfl⟩
theorem witness_LoadReinitialisesTheBlock :
    0x200 ≤ 0x200 ∧ 0x1B0 + 80 ≤ 0x200 ∧ 0x200 + (List.replicate 3584 (0x00 : Byte)).length ≤ 4096 := by
  rw [List.length_replicate]
  decide
theorem witness_FailedLoadChangesNothing :
    0x1FF < 0x200 ∧ 0x1B1 + 80 > 0x200 ∧ 0x200 ≤ 0x200 ∧ 0x1B0 + 80 ≤ 0x200 ∧
    0x200 + (List.replicate 3585 (0x00 : Byte)).length > 4096 := by
  rw [List.length_replicate]
  decide
theorem witness_LoadThenStepRunsTheFirstInstruction :
    0xFFE ≥ 0x200 ∧ 0x1B0 + 80 ≤ 0x200 ∧ 0xFFE + (([] : List Byte).length + 2) ≤ 4096 ∧ decodeBytes 0x00 0xEE = .ok .ret := by decide
theorem witness_OnlyLoadLeavesFaultedOrStopped :
    (∀ p ∈ [Port.step, Port.terminate], p.isLoad = false) ∧ (start.enterFault .stackOverflow).run = .faulted .stackOverflow ∧
    (start.setRun .stopped).run = .stopped := by decide

end Sys2Proof.Tests
end

/-! PROOFS. Control transfer (40_control_flow): what a move of PC alone changes, and the jump and the four skips of R103 and R105
to R108. -/

namespace Sys2Proof

open Sys2Proof.Machine

/-! ### A move of PC alone -/

theorem unchangedExcept_setPc (s : State) (w : Word) : UnchangedExcept [.pc] s (s.setPc w) := by
  simp [UnchangedExcept]

/-- PC moved on by a distance, as 16-bit words add (00_scope R9). -/
theorem pcIs_of_pc_eq_add {s t : State} (d : Nat) (h : t.pc = s.pc + BitVec.ofNat 16 d) : PcIs t (s.pc.toNat + d) := by
  simp [PcIs, h]

/-- The conditional skip of 40_control_flow R100, for a test that computes the condition. -/
theorem skipsIf_skipIf (s : State) {cond : Prop} {test : Bool} (h : test = true ↔ cond) : SkipsIf cond s (s.skipIf test) := by
  refine ⟨fun hc => pcIs_of_pc_eq_add 4 ?_, fun hc => pcIs_of_pc_eq_add 2 ?_, unchangedExcept_setPc s _⟩
  · simp [h.mpr hc]
  · simp [mt h.mp hc]

/-! ### What each instruction does -/

theorem exec_jp (nnn : Addr) (s : State) : exec (.jp nnn) s = .next (s.setPc (addrOperand nnn)) := rfl

theorem exec_seImm (x : Reg) (nn : Byte) (s : State) : exec (.seImm x nn) s = .next (s.skipIf (s.getV x == nn)) := rfl

theorem exec_sneImm (x : Reg) (nn : Byte) (s : State) : exec (.sneImm x nn) s = .next (s.skipIf (s.getV x != nn)) := rfl

theorem exec_seReg (x y : Reg) (s : State) : exec (.seReg x y) s = .next (s.skipIf (s.getV x == s.getV y)) := rfl

theorem exec_sneReg (x y : Reg) (s : State) : exec (.sneReg x y) s = .next (s.skipIf (s.getV x != s.getV y)) := rfl

/-! ### Words -/

/-- The digits of a `reg_imm` word, the fixed family digit first, as the statements write them (30_encoding R73). -/
theorem encodeRegImm_eq_ofNat (f : Nat) (x : Reg) (nn : Nat) :
    encodeRegImm f x nn = BitVec.ofNat 16 (f * 0x1000 + 0x100 * x.val + nn) := by
  rw [encodeRegImm, Nat.mul_comm x.val]

/-- The digits of a `reg_reg` word, the fixed family digit first, as the statements write them (30_encoding R73). -/
theorem encodeRegReg_eq_ofNat (f : Nat) (x y : Reg) (n : Nat) :
    encodeRegReg f x y n = BitVec.ofNat 16 (f * 0x1000 + 0x100 * x.val + 0x10 * y.val + n) := by
  rw [encodeRegReg, Nat.mul_comm x.val, Nat.mul_comm y.val]

/-- The last digit of a `reg_reg` word (30_encoding R72, R73). -/
theorem fieldN_encodeRegReg (f : Nat) (x y : Reg) (n : Nat) (hf : f < 16) (hn : n < 16) :
    fieldN (encodeRegReg f x y n) = BitVec.ofNat 4 n := by
  apply BitVec.eq_of_toNat_eq
  rw [fieldN_toNat, encodeRegReg_toNat f x y n hf hn, BitVec.toNat_ofNat]
  omega

/-- Families 5 and 9 have one legal last digit, 0 (30_encoding R77, R78). -/
theorem decode_illegal_of_fieldN_ne_zero {w : Word} (hF : fieldF w = 0x5#4 ∨ fieldF w = 0x9#4) (hN : fieldN w ≠ 0#4) :
    decode w = .error (.illegalInstruction w) := by
  obtain hF | hF := hF
  · simp [decode, hF, hN]
  · simp [decode, hF, hN]

/-- 5XYN and 9XYN with N not 0 are illegal (40_control_flow R107, R108). -/
theorem decode_encodeRegReg_illegal {f : Nat} (x y : Reg) {n : Nat} (hf : f = 0x5 ∨ f = 0x9) (hn0 : 0 < n) (hn : n < 16) :
    decode (encodeRegReg f x y n) = .error (.illegalInstruction (encodeRegReg f x y n)) := by
  have hf16 : f < 16 := by omega
  apply decode_illegal_of_fieldN_ne_zero
  · rw [Laws.FamilyNibble.of_regReg f x y n hf16 hn]
    exact hf.imp (congrArg _) (congrArg _)
  · rw [fieldN_encodeRegReg f x y n hf16 hn, ne_eq, BitVec.toNat_eq, BitVec.toNat_ofNat, BitVec.toNat_ofNat]
    omega

/-! ### The obligations -/

/-- Settles O31: the jump is one move of PC. -/
theorem jumpGoesToNnn : Obligations.JumpGoesToNnn :=
  fun nnn => ⟨rfl, fun s => ⟨_, exec_jp nnn s, addrOperand_toNat nnn, unchangedExcept_setPc s _⟩⟩

/-- Settles O35: both instructions are the skip on their test. -/
theorem immediateSkips : Obligations.ImmediateSkips :=
  fun x nn => ⟨encodeRegImm_eq_ofNat 0x3 x nn.toNat, encodeRegImm_eq_ofNat 0x4 x nn.toNat, fun s =>
    ⟨⟨_, exec_seImm x nn s, skipsIf_skipIf s beq_iff_eq⟩, ⟨_, exec_sneImm x nn s, skipsIf_skipIf s bne_iff_ne⟩⟩⟩

/-- Settles O36: both instructions are the skip on their test, and the last digit of an illegal word is not 0. -/
theorem registerSkips : Obligations.RegisterSkips := by
  intro x y
  refine ⟨encodeRegReg_eq_ofNat 0x5 x y 0x0, encodeRegReg_eq_ofNat 0x9 x y 0x0, fun n hn0 hn f hf => ?_, fun s =>
    ⟨⟨_, exec_seReg x y s, skipsIf_skipIf s beq_iff_eq⟩, ⟨_, exec_sneReg x y s, skipsIf_skipIf s bne_iff_ne⟩⟩⟩
  obtain rfl | rfl : f = 0x5 * 0x1000 ∨ f = 0x9 * 0x1000 := by simpa using hf
  · simpa only [encodeRegReg_eq_ofNat] using decode_encodeRegReg_illegal x y (.inl rfl) hn0 hn
  · simpa only [encodeRegReg_eq_ofNat] using decode_encodeRegReg_illegal x y (.inr rfl) hn0 hn

end Sys2Proof

/-! PROOFS. The 8-bit ALU (41_alu): what a write of one register alone changes, and the two loads and the immediate addition of R133
to R135. -/

namespace Sys2Proof

open Sys2Proof.Machine

/-! ### A write of one register -/

theorem unchangedExcept_setV_advance (s : State) (x : Reg) (b : Byte) : UnchangedExcept [.v, .pc] s (s.setV x b).advance := by
  simp [UnchangedExcept]

/-- VF is no exception: it changes only when `x` is 15, as the destination (41_alu R133). -/
theorem writesOneRegister_setV_advance (s : State) (x : Reg) (b : Byte) : WritesOneRegister x b s (s.setV x b).advance := by
  refine ⟨?_, fun r hr => ?_, pcIs_of_pc_eq_add 2 rfl, unchangedExcept_setV_advance s x b⟩
  · rw [State.getV_advance, State.getV_setV_same]
  · rw [State.getV_advance, State.getV_setV_other s x r b hr]

/-! ### What each instruction does -/

theorem exec_ldImm (x : Reg) (nn : Byte) (s : State) : exec (.ldImm x nn) s = .next (s.setV x nn).advance := rfl

theorem exec_addImm (x : Reg) (nn : Byte) (s : State) : exec (.addImm x nn) s = .next (s.setV x (s.getV x + nn)).advance := rfl

theorem exec_ldReg (x y : Reg) (s : State) : exec (.ldReg x y) s = .next (s.setV x (s.getV y)).advance := rfl

/-! ### Results modulo 256 (41_alu R130) -/

/-- The exact sum of two bytes, reduced modulo 256, is their sum as bytes. -/
theorem ofNat_toNat_add_mod_256 (a b : Byte) : BitVec.ofNat 8 ((a.toNat + b.toNat) % 256) = a + b := by
  apply BitVec.eq_of_toNat_eq
  rw [BitVec.toNat_ofNat, BitVec.toNat_add, Nat.mod_mod]

/-! ### The obligations -/

/-- Settles O23: the load is one register write. -/
theorem loadImmediateSetsVx : Obligations.LoadImmediateSetsVx :=
  fun x nn => ⟨encodeRegImm_eq_ofNat 0x6 x nn.toNat, fun s => ⟨_, exec_ldImm x nn s, writesOneRegister_setV_advance s x nn⟩⟩

/-- Settles O24: the addition is one register write, of the byte sum. -/
theorem addImmediateWrapsWithoutFlag : Obligations.AddImmediateWrapsWithoutFlag := by
  refine fun x nn => ⟨encodeRegImm_eq_ofNat 0x7 x nn.toNat, fun s => ⟨_, exec_addImm x nn s, ?_⟩⟩
  rw [ofNat_toNat_add_mod_256]
  exact writesOneRegister_setV_advance s x _

/-- Settles O25: the copy is one register write. -/
theorem loadRegisterCopiesVy : Obligations.LoadRegisterCopiesVy :=
  fun x y => ⟨encodeRegReg_eq_ofNat 0x8 x y 0x0, fun s => ⟨_, exec_ldReg x y s, writesOneRegister_setV_advance s x _⟩⟩

end Sys2Proof

/-! PROOFS. Index register and memory (42_index_memory): what a write of I alone changes, and the load of I of R161. -/

namespace Sys2Proof

open Sys2Proof.Machine

/-! ### A write of I alone -/

theorem unchangedExcept_setI_advance (s : State) (w : Word) : UnchangedExcept [.i, .pc] s (s.setI w).advance := by
  simp [UnchangedExcept]

theorem pcIs_setI_advance (s : State) (w : Word) : PcIs (s.setI w).advance (s.pc.toNat + 2) :=
  pcIs_of_pc_eq_add 2 (by rw [State.advance_pc, State.setI_pc])

/-! ### What the instruction does -/

theorem exec_ldI (nnn : Addr) (s : State) : exec (.ldI nnn) s = .next (s.setI (addrOperand nnn)).advance := rfl

/-! ### The obligation -/

/-- Settles O38: the load is one write of I, of the address operand widened to a word. -/
theorem loadIndexSetsI : Obligations.LoadIndexSetsI := by
  refine fun nnn => ⟨rfl, fun s => ⟨_, exec_ldI nnn s, ?_, pcIs_setI_advance s _, unchangedExcept_setI_advance s _⟩⟩
  rw [State.advance_i, State.setI_i, addrOperand_toNat]

end Sys2Proof

/-! PROOFS. Display (43_display): what a write of the framebuffer alone changes, and the clear of R181. -/

namespace Sys2Proof

open Sys2Proof.Machine

/-! ### A write of the framebuffer alone -/

theorem unchangedExcept_setFb_advance (s : State) (fb : Framebuffer) :
    UnchangedExcept [.fb, .pc] s (s.setFb fb).advance := by
  simp [UnchangedExcept]

theorem pcIs_setFb_advance (s : State) (fb : Framebuffer) : PcIs (s.setFb fb).advance (s.pc.toNat + 2) :=
  pcIs_of_pc_eq_add 2 (by rw [State.advance_pc, State.setFb_pc])

/-! ### What the instruction does -/

theorem exec_cls (s : State) : exec .cls s = .next (s.setFb Framebuffer.blank).advance := rfl

/-! ### The obligation -/

/-- Settles O45: the clear is one write of the framebuffer, of the blank one. -/
theorem clearBlanksTheFramebuffer : Obligations.ClearBlanksTheFramebuffer := by
  refine ⟨rfl, fun s => ⟨_, exec_cls s, fun r c => ?_, pcIs_setFb_advance s _, unchangedExcept_setFb_advance s _⟩⟩
  rw [State.advance_fb, State.setFb_fb, Framebuffer.pixel_blank]

end Sys2Proof

/-! PROOFS. Keys and timers (44_keys_timers): what a write of one timer alone changes, and the three timer instructions of R203, R206
and R207. -/

namespace Sys2Proof

open Sys2Proof.Machine

/-! ### A write of one timer alone -/

theorem unchangedExcept_setDt_advance (s : State) (b : Byte) : UnchangedExcept [.dt, .pc] s (s.setDt b).advance := by
  simp [UnchangedExcept]

theorem pcIs_setDt_advance (s : State) (b : Byte) : PcIs (s.setDt b).advance (s.pc.toNat + 2) :=
  pcIs_of_pc_eq_add 2 (by rw [State.advance_pc, State.setDt_pc])

theorem unchangedExcept_setSt_advance (s : State) (b : Byte) : UnchangedExcept [.st, .pc] s (s.setSt b).advance := by
  simp [UnchangedExcept]

theorem pcIs_setSt_advance (s : State) (b : Byte) : PcIs (s.setSt b).advance (s.pc.toNat + 2) :=
  pcIs_of_pc_eq_add 2 (by rw [State.advance_pc, State.setSt_pc])

/-! ### What each instruction does -/

theorem exec_ldVxDt (x : Reg) (s : State) : exec (.ldVxDt x) s = .next (s.setV x s.dt).advance := rfl

theorem exec_ldDtVx (x : Reg) (s : State) : exec (.ldDtVx x) s = .next (s.setDt (s.getV x)).advance := rfl

theorem exec_ldStVx (x : Reg) (s : State) : exec (.ldStVx x) s = .next (s.setSt (s.getV x)).advance := rfl

/-! ### Words -/

/-- The digits of a `reg_imm` word whose last byte is fixed as its family digit is: the fixed digits first, then the register's
(30_encoding R73). -/
theorem encodeRegImm_eq_ofNat_fixed_add (f : Nat) (x : Reg) (nn : Nat) :
    encodeRegImm f x nn = BitVec.ofNat 16 (f * 0x1000 + nn + 0x100 * x.val) := by
  rw [encodeRegImm_eq_ofNat, Nat.add_right_comm]

/-! ### The obligation -/

/-- Settles O49: the read of DT is one register write, and the other two are one timer write each. -/
theorem timerInstructionsMoveTheValue : Obligations.TimerInstructionsMoveTheValue := by
  refine fun x => ⟨⟨encodeRegImm_eq_ofNat_fixed_add 0xF x 0x07, fun s => ?_⟩,
    ⟨encodeRegImm_eq_ofNat_fixed_add 0xF x 0x15, fun s => ?_⟩, ⟨encodeRegImm_eq_ofNat_fixed_add 0xF x 0x18, fun s => ?_⟩⟩
  · exact ⟨_, exec_ldVxDt x s, writesOneRegister_setV_advance s x s.dt⟩
  · exact ⟨_, exec_ldDtVx x s, rfl, pcIs_setDt_advance s _, unchangedExcept_setDt_advance s _⟩
  · exact ⟨_, exec_ldStVx x s, rfl, pcIs_setSt_advance s _, unchangedExcept_setSt_advance s _⟩

end Sys2Proof

/-! PROOFS. The framebuffer port (60_exceptions R244): the state after a snapshot, and what the snapshot returns. -/

namespace Sys2Proof

open Sys2Proof.Machine

/-! ### What the port does -/

@[simp] theorem transact_framebufferSnapshot (s : State) : transact .framebufferSnapshot s = .next s := rfl

@[simp] theorem reply_framebufferSnapshot (s : State) : reply .framebufferSnapshot s = .pixels s.fb := rfl

/-! ### The obligation -/

/-- Settles O55: a snapshot is the transition that stays at its state, and its reply reads the framebuffer of that state. -/
theorem snapshotCopiesTheFramebuffer : Obligations.SnapshotCopiesTheFramebuffer :=
  fun s => ⟨transact_framebufferSnapshot s, reply_framebufferSnapshot s⟩

end Sys2Proof

/-! PROOFS. Words (30_encoding): the digits of an encoded word, a word rebuilt from its digits, the words a row's mask
admits, and the two directions of the round trip with the illegal words of section 3. -/

namespace Sys2Proof

open Sys2Proof.Machine

/-! ### The fields of an encoded word (30_encoding R72, R73) -/

theorem fieldNNN_encodeAddr (f : Nat) (nnn : Addr) (hf : f < 16) : fieldNNN (encodeAddr f nnn) = nnn := by
  have := nnn.isLt
  apply BitVec.eq_of_toNat_eq
  rw [fieldNNN_toNat, encodeAddr_toNat f nnn hf]
  omega

theorem fieldX_encodeRegImm (f : Nat) (x : Reg) (nn : Nat) (hf : f < 16) (hn : nn < 256) :
    fieldX (encodeRegImm f x nn) = x := by
  have := x.isLt
  apply Fin.ext
  rw [fieldX_val, encodeRegImm_toNat f x nn hf hn]
  omega

theorem fieldNN_encodeRegImm (f : Nat) (x : Reg) (nn : Nat) (hf : f < 16) (hn : nn < 256) :
    fieldNN (encodeRegImm f x nn) = BitVec.ofNat 8 nn := by
  apply BitVec.eq_of_toNat_eq
  rw [fieldNN_toNat, encodeRegImm_toNat f x nn hf hn, BitVec.toNat_ofNat]
  omega

theorem fieldX_encodeRegReg (f : Nat) (x y : Reg) (n : Nat) (hf : f < 16) (hn : n < 16) :
    fieldX (encodeRegReg f x y n) = x := by
  have := x.isLt
  have := y.isLt
  apply Fin.ext
  rw [fieldX_val, encodeRegReg_toNat f x y n hf hn]
  omega

theorem fieldY_encodeRegReg (f : Nat) (x y : Reg) (n : Nat) (hf : f < 16) (hn : n < 16) :
    fieldY (encodeRegReg f x y n) = y := by
  have := y.isLt
  apply Fin.ext
  rw [fieldY_val, encodeRegReg_toNat f x y n hf hn]
  omega

/-- 0NNN is neither 00E0 nor 00EE when NNN is neither 0E0 nor 0EE (30_encoding R76). -/
theorem decode0_encodeAddr (nnn : Addr) (hcls : nnn ≠ 0x0E0#12) (hret : nnn ≠ 0x0EE#12) :
    decode0 (encodeAddr 0x0 nnn) = .sys nnn := by
  have hne : ∀ a : Addr, nnn ≠ a → encodeAddr 0x0 nnn ≠ encodeAddr 0x0 a := fun a ha h => ha <| by
    rw [← fieldNNN_encodeAddr 0x0 nnn (by decide), h, fieldNNN_encodeAddr 0x0 a (by decide)]
  have hcls' : encodeAddr 0x0 nnn ≠ 0x00E0#16 := hne 0x0E0#12 hcls
  have hret' : encodeAddr 0x0 nnn ≠ 0x00EE#16 := hne 0x0EE#12 hret
  rw [decode0, if_neg hcls', if_neg hret', fieldNNN_encodeAddr 0x0 nnn (by decide)]

/-! ### A word rebuilt from its fields -/

theorem encodeAddr_fieldNNN {w : Word} {f : Nat} (hF : (fieldF w).toNat = f) : encodeAddr f (fieldNNN w) = w := by
  subst hF
  apply BitVec.eq_of_toNat_eq
  rw [encodeAddr_toNat _ _ (fieldF w).isLt, fieldF_toNat, fieldNNN_toNat]
  omega

theorem encodeRegImm_fieldX {w : Word} {f nn : Nat} (hF : (fieldF w).toNat = f) (hNN : (fieldNN w).toNat = nn) :
    encodeRegImm f (fieldX w) nn = w := by
  subst hF hNN
  apply BitVec.eq_of_toNat_eq
  rw [encodeRegImm_toNat _ _ _ (fieldF w).isLt (fieldNN w).isLt, fieldF_toNat, fieldX_val, fieldNN_toNat]
  omega

theorem encodeRegReg_fieldX_fieldY {w : Word} {f n : Nat} (hF : (fieldF w).toNat = f) (hN : (fieldN w).toNat = n) :
    encodeRegReg f (fieldX w) (fieldY w) n = w := by
  subst hF hN
  apply BitVec.eq_of_toNat_eq
  rw [encodeRegReg_toNat _ _ _ _ (fieldF w).isLt (fieldN w).isLt, fieldF_toNat, fieldX_val, fieldY_val, fieldN_toNat]
  omega

/-- The word is the encoding of a well-formed instruction: what decoding to `i` promises (30_encoding R77). -/
def IsWordOf (w : Word) (i : Instr) : Prop := i.wellFormed = true ∧ encode i = w

theorem isWordOf_decode0 {w : Word} (hF : fieldF w = 0x0#4) : IsWordOf w (decode0 w) := by
  have hw : encodeAddr 0x0 (fieldNNN w) = w := encodeAddr_fieldNNN (by simp [hF])
  unfold decode0
  split
  next h => exact ⟨rfl, h.symm⟩
  next hcls =>
    split
    next h => exact ⟨rfl, h.symm⟩
    next hret =>
      have hne : ∀ a : Addr, w ≠ encodeAddr 0x0 a → fieldNNN w ≠ a := fun a ha h => ha (h ▸ hw.symm)
      refine ⟨?_, hw⟩
      simp [Instr.wellFormed, hne 0x0E0#12 hcls, hne 0x0EE#12 hret]

theorem isWordOf_of_decode8 {w : Word} {i : Instr} (hF : fieldF w = 0x8#4) (h : decode8 w = .ok i) : IsWordOf w i := by
  unfold decode8 at h
  split at h <;> cases h
  all_goals
    rename_i hN
    exact ⟨rfl, encodeRegReg_fieldX_fieldY (by simp [hF]) (by simp [hN])⟩

theorem isWordOf_of_decodeE {w : Word} {i : Instr} (hF : fieldF w = 0xE#4) (h : decodeE w = .ok i) : IsWordOf w i := by
  unfold decodeE at h
  split at h <;> cases h
  all_goals
    rename_i hNN
    exact ⟨rfl, encodeRegImm_fieldX (by simp [hF]) (by simp [hNN])⟩

theorem isWordOf_of_decodeF {w : Word} {i : Instr} (hF : fieldF w = 0xF#4) (h : decodeF w = .ok i) : IsWordOf w i := by
  unfold decodeF at h
  split at h <;> cases h
  all_goals
    rename_i hNN
    exact ⟨rfl, encodeRegImm_fieldX (by simp [hF]) (by simp [hNN])⟩

theorem isWordOf_of_decode {w : Word} {i : Instr} (h : decode w = .ok i) : IsWordOf w i := by
  unfold decode at h
  split at h
  case h_1 hF => cases h; exact isWordOf_decode0 hF
  case h_6 hF | h_10 hF =>
    split at h <;> cases h
    next hN => exact ⟨rfl, encodeRegReg_fieldX_fieldY (by simp [hF]) (by simp [hN])⟩
  case h_9 hF => exact isWordOf_of_decode8 hF h
  case h_15 hF => exact isWordOf_of_decodeE hF h
  case h_16 => exact isWordOf_of_decodeF (by simp only [imp_false, ← ne_eq] at *; bv_omega) h
  case h_2 hF | h_3 hF | h_11 hF | h_12 hF => cases h; exact ⟨rfl, encodeAddr_fieldNNN (by simp [hF])⟩
  case h_4 hF | h_5 hF | h_7 hF | h_8 hF | h_13 hF => cases h; exact ⟨rfl, encodeRegImm_fieldX (by simp [hF]) rfl⟩
  case h_14 hF => cases h; exact ⟨rfl, encodeRegReg_fieldX_fieldY (by simp [hF]) rfl⟩

/-! ### Round trip -/

/-- Settles O1: each constructor's word has its family and operands as its digits, and decoding reads the digits. -/
theorem decodeOfEncodeIsTheInstruction : Obligations.DecodeOfEncodeIsTheInstruction := by
  intro i hwf
  cases i with
  | cls | ret => decide
  | sys nnn =>
    obtain ⟨hcls, hret⟩ : nnn ≠ 0x0E0#12 ∧ nnn ≠ 0x0EE#12 := by simpa [Instr.wellFormed] using hwf
    rw [decode, Laws.FamilyNibble.sys nnn]
    exact congrArg Except.ok (decode0_encodeAddr nnn hcls hret)
  | jp | call | ldI | jpV0 => simp [encode, decode, Laws.FamilyNibble.of_addr, fieldNNN_encodeAddr]
  | seImm x nn | sneImm x nn | ldImm x nn | addImm x nn | rnd x nn =>
    have hnn : nn.toNat < 256 := nn.isLt
    simp [encode, decode, Laws.FamilyNibble.of_regImm, fieldX_encodeRegImm, fieldNN_encodeRegImm, hnn]
  | seReg | sneReg =>
    simp [encode, decode, Laws.FamilyNibble.of_regReg, fieldX_encodeRegReg, fieldY_encodeRegReg, fieldN_encodeRegReg]
  | drw x y n =>
    have hn : n.toNat < 16 := n.isLt
    simp [encode, decode, Laws.FamilyNibble.of_regReg, fieldX_encodeRegReg, fieldY_encodeRegReg, fieldN_encodeRegReg, hn]
  | ldReg | orReg | andReg | xorReg | addReg | subReg | shr | subn | shl =>
    simp [encode, decode, decode8, Laws.FamilyNibble.of_regReg, fieldX_encodeRegReg, fieldY_encodeRegReg, fieldN_encodeRegReg]
  | skp | sknp => simp [encode, decode, decodeE, Laws.FamilyNibble.of_regImm, fieldX_encodeRegImm, fieldNN_encodeRegImm]
  | ldVxDt | ldVxK | ldDtVx | ldStVx | addI | ldF | ldB | ldMemVx | ldVxMem =>
    simp [encode, decode, decodeF, Laws.FamilyNibble.of_regImm, fieldX_encodeRegImm, fieldNN_encodeRegImm]

/-- Settles O2: the digits read by the decoder, put back at their places, are the word. -/
theorem encodeOfDecodeIsTheWord : Obligations.EncodeOfDecodeIsTheWord :=
  fun _ _ => isWordOf_of_decode

/-! ### Illegal words -/

/-- The illegal words by their fields (30_encoding section 3). -/
def IsIllegal (w : Word) : Prop :=
  (fieldF w = 0x5#4 ∧ fieldN w ≠ 0x0#4) ∨
  (fieldF w = 0x8#4 ∧ fieldN w ∉ [0x0#4, 0x1#4, 0x2#4, 0x3#4, 0x4#4, 0x5#4, 0x6#4, 0x7#4, 0xE#4]) ∨
  (fieldF w = 0x9#4 ∧ fieldN w ≠ 0x0#4) ∨
  (fieldF w = 0xE#4 ∧ fieldNN w ∉ [0x9E#8, 0xA1#8]) ∨
  (fieldF w = 0xF#4 ∧ fieldNN w ∉ [0x07#8, 0x0A#8, 0x15#8, 0x18#8, 0x1E#8, 0x29#8, 0x33#8, 0x55#8, 0x65#8])

theorem decode8_illegal_iff (w : Word) : decode8 w = .error (.illegalInstruction w) ↔
    fieldN w ∉ [0x0#4, 0x1#4, 0x2#4, 0x3#4, 0x4#4, 0x5#4, 0x6#4, 0x7#4, 0xE#4] := by
  unfold decode8
  split <;> simp_all

theorem decodeE_illegal_iff (w : Word) : decodeE w = .error (.illegalInstruction w) ↔ fieldNN w ∉ [0x9E#8, 0xA1#8] := by
  unfold decodeE
  split <;> simp_all

theorem decodeF_illegal_iff (w : Word) : decodeF w = .error (.illegalInstruction w) ↔
    fieldNN w ∉ [0x07#8, 0x0A#8, 0x15#8, 0x18#8, 0x1E#8, 0x29#8, 0x33#8, 0x55#8, 0x65#8] := by
  unfold decodeF
  split <;> simp_all

/-- The decoder refuses a word by the word itself (30_encoding R78). -/
theorem eq_illegal_of_decode_error {w : Word} {d : DecodeError} (h : decode w = .error d) : d = .illegalInstruction w := by
  unfold decode at h
  split at h
  case h_6 | h_10 => split at h <;> cases h; rfl
  case h_9 => unfold decode8 at h; split at h <;> cases h; rfl
  case h_15 => unfold decodeE at h; split at h <;> cases h; rfl
  case h_16 => unfold decodeF at h; split at h <;> cases h; rfl
  all_goals cases h

theorem decode_illegal_iff (w : Word) : decode w = .error (.illegalInstruction w) ↔ IsIllegal w := by
  unfold decode IsIllegal
  split
  case h_6 hF | h_10 hF => split <;> simp_all
  case h_9 hF => simp [hF, decode8_illegal_iff]
  case h_15 hF => simp [hF, decodeE_illegal_iff]
  case h_16 =>
    have hF : fieldF w = 0xF#4 := by simp only [imp_false, ← ne_eq] at *; bv_omega
    simp [hF, decodeF_illegal_iff]
  all_goals
    rename_i hF
    simp [hF]

/-- The legal last digits of family 8 are those below 8, and E. -/
theorem not_legal_digit8_iff {n : Nat} (hn : n < 16) :
    ¬(n = 0 ∨ n = 1 ∨ n = 2 ∨ n = 3 ∨ n = 4 ∨ n = 5 ∨ n = 6 ∨ n = 7 ∨ n = 14) ↔ 8 ≤ n ∧ ¬n = 14 := by
  omega

/-- Settles O4: the fields are digits of the word's number. -/
theorem illegalWordsAreTheListedOnes : Obligations.IllegalWordsAreTheListedOnes := by
  intro w
  rw [decode_illegal_iff]
  simp only [IsIllegal, BitVec.toNat_eq, fieldF_toNat, fieldN_toNat, fieldNN_toNat, List.mem_cons, List.not_mem_nil, or_false,
    BitVec.toNat_ofNat, Nat.reducePow, Nat.reduceMod, ne_eq, not_legal_digit8_iff (Nat.mod_lt w.toNat (by decide : 0 < 16))]

/-! ### Masks: what a row of the opcode map tests (30_encoding R75) -/

theorem eq_iff_fieldF_fieldN (v w : Word) :
    v = w ↔ fieldF v = fieldF w ∧ v.extractLsb' 4 8 = w.extractLsb' 4 8 ∧ fieldN v = fieldN w := by
  refine ⟨fun h => by simp [h], fun ⟨hF, hXY, hN⟩ => ?_⟩
  have hXY' := congrArg BitVec.toNat hXY
  simp only [BitVec.extractLsb'_toNat, Nat.shiftRight_eq_div_pow] at hXY'
  rw [BitVec.toNat_eq, fieldF_toNat, fieldF_toNat] at hF
  rw [BitVec.toNat_eq, fieldN_toNat, fieldN_toNat] at hN
  apply BitVec.eq_of_toNat_eq
  omega

theorem eq_iff_fieldF_fieldNN (v w : Word) :
    v = w ↔ fieldF v = fieldF w ∧ fieldX v = fieldX w ∧ fieldNN v = fieldNN w := by
  refine ⟨fun h => by simp [h], fun ⟨hF, hX, hNN⟩ => ?_⟩
  rw [← encodeRegImm_fieldX (w := v) rfl rfl, ← encodeRegImm_fieldX (w := w) rfl rfl, hF, hX, hNN]

theorem and_F (x : BitVec 4) : x &&& 0xF#4 = x := BitVec.and_allOnes

theorem and_FF (x : BitVec 8) : x &&& 0xFF#8 = x := BitVec.and_allOnes

theorem and_FFFF_eq_iff (w m : Word) : w &&& 0xFFFF#16 = m ↔ fieldF w = fieldF m ∧ w = m := by
  rw [show w &&& 0xFFFF#16 = w from BitVec.and_allOnes]
  exact ⟨fun h => ⟨congrArg fieldF h, h⟩, And.right⟩

theorem and_F000_eq_iff (w m : Word) :
    w &&& 0xF000#16 = m ↔ fieldF w = fieldF m ∧ 0#8 = m.extractLsb' 4 8 ∧ 0#4 = fieldN m := by
  rw [eq_iff_fieldF_fieldN]
  simp [fieldF, fieldN, BitVec.extractLsb'_and, and_F]

theorem and_F00F_eq_iff (w m : Word) :
    w &&& 0xF00F#16 = m ↔ fieldF w = fieldF m ∧ 0#8 = m.extractLsb' 4 8 ∧ fieldN w = fieldN m := by
  rw [eq_iff_fieldF_fieldN]
  simp [fieldF, fieldN, BitVec.extractLsb'_and, and_F]

theorem and_F0FF_eq_iff (w m : Word) :
    w &&& 0xF0FF#16 = m ↔ fieldF w = fieldF m ∧ 0 = fieldX m ∧ fieldNN w = fieldNN m := by
  rw [eq_iff_fieldF_fieldNN]
  simp [fieldF, fieldX, fieldNN, BitVec.extractLsb'_and, and_F, and_FF]

theorem nibble_cases (f : BitVec 4) :
    f = 0x0#4 ∨ f = 0x1#4 ∨ f = 0x2#4 ∨ f = 0x3#4 ∨ f = 0x4#4 ∨ f = 0x5#4 ∨ f = 0x6#4 ∨ f = 0x7#4 ∨
    f = 0x8#4 ∨ f = 0x9#4 ∨ f = 0xA#4 ∨ f = 0xB#4 ∨ f = 0xC#4 ∨ f = 0xD#4 ∨ f = 0xE#4 ∨ f = 0xF#4 := by
  revert f
  decide

/-- Settles O3: each mask keeps the fields that its row fixes, and in each family the rows' fixed fields are the legal ones. -/
theorem illegalWordsMatchNoRow : Obligations.IllegalWordsMatchNoRow := by
  intro w
  rw [decode_illegal_iff]
  simp only [opcodeMap, List.forall_mem_cons, BitVec.ofNat_eq_ofNat, ne_eq, and_FFFF_eq_iff, and_F000_eq_iff, and_F00F_eq_iff,
    and_F0FF_eq_iff]
  obtain hF | hF | hF | hF | hF | hF | hF | hF | hF | hF | hF | hF | hF | hF | hF | hF := nibble_cases (fieldF w)
  all_goals
    rw [fieldF] at hF
    simp [IsIllegal, fieldF, fieldN, fieldNN, fieldX, hF]

/-- Settles O5: each word is two literal bytes, and the decoder computes on them. -/
theorem sampleWordsDecode : Obligations.SampleWordsDecode := by
  unfold Obligations.SampleWordsDecode
  and_intros <;> decide

end Sys2Proof

/-! PROOFS. One instruction as a check and an effect: the error its own check raises, what it does when the check passes, and which
parts of the state the effect changes. -/

namespace Sys2Proof

open Sys2Proof.Machine

/-! ### Check and effect -/

/-- The error that an instruction's own check raises, if it fails (60_exceptions R230): the stack of 00EE and 2NNN, the key index of
EX9E and EXA1, the address range of the rest, which is empty but for DXYN, FX33, FX55 and FX65. -/
def Instr.check (i : Instr) (s : State) : Option ErrorKind :=
  match i with
  | .ret => if s.stack = [] then some .stackUnderflow else none
  | .call _ => if s.stack.length = Config.stackDepth then some .stackOverflow else none
  | .skp x | .sknp x => if 15 < (s.getV x).toNat then some (.keyIndexError (s.getV x)) else none
  | i => (firstBadAddress s.i.toNat i.dataBytes).map .addressError

/-- The next state of an instruction whose check passes. -/
def Instr.effect (i : Instr) (s : State) : State :=
  match i with
  | .cls => (s.setFb Framebuffer.blank).advance
  | .ret => (s.setStack s.stack.tail).setPc (s.stack.headD 0#16)
  | .sys nnn | .jp nnn => s.setPc (addrOperand nnn)
  | .call nnn => (s.setStack ((s.pc + 2#16) :: s.stack)).setPc (addrOperand nnn)
  | .seImm x nn => s.skipIf (s.getV x == nn)
  | .sneImm x nn => s.skipIf (s.getV x != nn)
  | .seReg x y => s.skipIf (s.getV x == s.getV y)
  | .sneReg x y => s.skipIf (s.getV x != s.getV y)
  | .jpV0 nnn => s.setPc (addrOperand nnn + wideByte (s.getV Reg.v0))
  | .ldImm x nn => (s.setV x nn).advance
  | .addImm x nn => (s.setV x (s.getV x + nn)).advance
  | .ldReg x y => (s.setV x (s.getV y)).advance
  | .orReg x y => (s.setV x (s.getV x ||| s.getV y)).advance
  | .andReg x y => (s.setV x (s.getV x &&& s.getV y)).advance
  | .xorReg x y => (s.setV x (s.getV x ^^^ s.getV y)).advance
  | .addReg x y => (s.setResultAndFlag x (s.getV x + s.getV y) (carry (s.getV x) (s.getV y))).advance
  | .subReg x y => (s.setResultAndFlag x (s.getV x - s.getV y) (noBorrow (s.getV x) (s.getV y))).advance
  | .subn x y => (s.setResultAndFlag x (s.getV y - s.getV x) (noBorrow (s.getV y) (s.getV x))).advance
  | .shr x y => (s.setResultAndFlag x (s.getV y >>> 1) (shiftedOutRight (s.getV y))).advance
  | .shl x y => (s.setResultAndFlag x (s.getV y <<< 1) (shiftedOutLeft (s.getV y))).advance
  | .rnd x nn => ((s.setV x (Config.randomByte s.draws &&& nn)).countDraw).advance
  | .ldI nnn => (s.setI (addrOperand nnn)).advance
  | .addI x => (s.setI (s.i + wideByte (s.getV x))).advance
  | .ldF x => (s.setI (s.fontBase + 5#16 * wideByte (s.getV x))).advance
  | .drw x y n => ((s.setFb (s.blit x y n).fb).setV Reg.vf (flagByte (s.blit x y n).collision)).advance
  | .skp x => s.skipIf ((keyOperand (s.getV x)).any fun k => s.keyFlag k)
  | .sknp x => s.skipIf ((keyOperand (s.getV x)).any fun k => !s.keyFlag k)
  | .ldVxDt x => (s.setV x s.dt).advance
  | .ldVxK x => ((s.setRun (.awaitingKey x)).setKeyLatch none).advance
  | .ldDtVx x => (s.setDt (s.getV x)).advance
  | .ldStVx x => (s.setSt (s.getV x)).advance
  | .ldB x => (s.setMem (s.mem.writeBlock s.indexBase (bcdDigits (s.getV x)))).advance
  | .ldMemVx x => (s.setMem (s.mem.writeBlock s.indexBase ((regsUpTo x).map s.getV))).advance
  | .ldVxMem x => (s.loadRegs (regsUpTo x)).advance

theorem withRange_eq_elim (base n : Nat) (s t : State) :
    withRange base n s t = .next (((firstBadAddress base n).map ErrorKind.addressError).elim t s.enterFault) := by
  unfold withRange
  cases firstBadAddress base n with
  | none => rfl
  | some a => rfl

/-- Every instruction, from every state, answers a next state: the fault of its check, or its effect. -/
theorem exec_eq (i : Instr) (s : State) : exec i s = .next ((i.check s).elim (i.effect s) s.enterFault) := by
  cases i with
  | ret => cases hs : s.stack <;> simp [exec, execRet, Instr.check, Instr.effect, hs]
  | call nnn =>
    simp only [exec, execCall, Instr.check]
    split
    · rfl
    · rfl
  | skp x =>
    simp only [exec, execSkp, Instr.check, ← keyOperand_none, Instr.effect]
    cases keyOperand (s.getV x) <;> simp
  | sknp x =>
    simp only [exec, execSknp, Instr.check, ← keyOperand_none, Instr.effect]
    cases keyOperand (s.getV x) <;> simp
  | drw | ldB | ldMemVx | ldVxMem => exact withRange_eq_elim _ _ _ _
  | _ => rfl

theorem exec_of_check_none {i : Instr} {s : State} (h : i.check s = none) : exec i s = .next (i.effect s) := by
  rw [exec_eq, h, Option.elim_none]

theorem exec_of_check_some {i : Instr} {s : State} {e : ErrorKind} (h : i.check s = some e) :
    exec i s = .next (s.enterFault e) := by
  rw [exec_eq, h, Option.elim_some]

/-- What an instruction's next state can be. -/
theorem exec_cases {i : Instr} {s t : State} (h : exec i s = .next t) :
    (∃ e, i.check s = some e ∧ t = s.enterFault e) ∨ (i.check s = none ∧ t = i.effect s) := by
  cases hc : i.check s with
  | none =>
    rw [exec_of_check_none hc] at h
    exact .inr ⟨rfl, (Host.Outcome.next.inj h).symm⟩
  | some e =>
    rw [exec_of_check_some hc] at h
    exact .inl ⟨e, rfl, (Host.Outcome.next.inj h).symm⟩

theorem unchangedExcept_enterFault (s : State) (e : ErrorKind) : UnchangedExcept [.run] s (s.enterFault e) := by
  simp [UnchangedExcept]

theorem faultedFrom_enterFault (s : State) (e : ErrorKind) : FaultedFrom s e (s.enterFault e) :=
  ⟨rfl, unchangedExcept_enterFault s e⟩

/-! ### When the check fails -/

/-- The check of the data bytes, for the instructions whose only check it is (20_memory R54). -/
theorem check_of_dataBytes {i : Instr} {s : State} (h : i.check s = none) :
    i.dataBytes = 0 ∨ s.i.toNat + i.dataBytes ≤ Config.memSize := by
  cases i with
  | drw | ldB | ldMemVx | ldVxMem => exact (firstBadAddress_none _ _).mp (Option.map_eq_none_iff.mp h)
  | _ => exact .inl rfl

/-! ### What the effect changes -/

@[simp] theorem State.loadRegs_mem (s : State) (regs : List Reg) : (s.loadRegs regs).mem = s.mem := by
  obtain ⟨v, hv⟩ := State.loadRegs_eq regs s
  rw [hv]

theorem effect_unchangedExcept (i : Instr) (s : State) : UnchangedExcept i.writesParts s (i.effect s) := by
  cases i with
  | ldVxMem x =>
    obtain ⟨v, hv⟩ := State.loadRegs_eq (regsUpTo x) s
    simp [UnchangedExcept, Instr.writesParts, Instr.effect, hv, State.keyFlag]
  | _ => simp [UnchangedExcept, Instr.writesParts, Instr.effect, State.setResultAndFlag]

theorem effect_getV {i : Instr} {r : Reg} (s : State) (h : i.writesV r = false) : (i.effect s).getV r = s.getV r := by
  cases i <;> simp_all [Instr.writesV, Instr.effect, State.getV_setResultAndFlag, State.getV_loadRegs, mem_regsUpTo]

/-- The bytes an instruction stores from I up (42_index_memory R164, R165). -/
def Instr.stores (i : Instr) (s : State) : List Byte :=
  match i with
  | .ldB x => bcdDigits (s.getV x)
  | .ldMemVx x => (regsUpTo x).map s.getV
  | _ => []

theorem effect_mem (i : Instr) (s : State) : (i.effect s).mem = s.mem.writeBlock s.i.toNat (i.stores s) := by
  cases i with
  | ldVxMem x => exact State.loadRegs_mem s (regsUpTo x)
  | _ => rfl

theorem stores_length (i : Instr) (s : State) : i.stores s = [] ∨ (i.stores s).length = i.dataBytes := by
  cases i with
  | ldB x => exact .inr (bcdDigits_length _)
  | ldMemVx x => exact .inr (by rw [Instr.stores, List.length_map, regsUpTo_length]; rfl)
  | _ => exact .inl rfl

/-- Memory outside the data bytes reads as before. -/
theorem effect_read (i : Instr) (s : State) {a : Nat} (ha : a < s.i.toNat ∨ s.i.toNat + i.dataBytes ≤ a) :
    (i.effect s).mem.read a = s.mem.read a := by
  rw [effect_mem, Memory.read_writeBlock, if_neg]
  obtain h | h := stores_length i s
  · simp [h]
  · omega

end Sys2Proof

/-! PROOFS. One call of the port step (30_encoding section 5): what it answers in each run state, the errors it can raise and their
causes, and its result. -/

namespace Sys2Proof

open Sys2Proof.Machine

/-! ### The fetch -/

/-- The lowest address of a range that leaves memory, as the statements write it. -/
theorem max_memSize_eq_ite (base : Nat) : max base Config.memSize = if 0x1000 ≤ base then base else 0x1000 := by
  rw [Config.memSize]
  split <;> omega

theorem fetch_of_inside {s : State} (h : s.pc.toNat + 1 < 0x1000) :
    fetch s = .ok (concat (s.mem.read s.pc.toNat) (s.mem.read (s.pc.toNat + 1))) := by
  rw [fetch_eq, if_pos]
  rw [Config.memSize]
  omega

theorem fetch_of_outside {s : State} (h : 0xFFF ≤ s.pc.toNat) :
    fetch s = .error (.addressError (if 0x1000 ≤ s.pc.toNat then s.pc.toNat else 0x1000)) := by
  rw [fetch_eq, if_neg, max_memSize_eq_ite]
  rw [Config.memSize]
  omega

/-! ### What a step answers -/

section
variable {s : State} (hrun : s.run = .running)
include hrun

theorem step_of_fetch_error {e : ErrorKind} (hf : fetch s = .error e) : step s = .next (s.enterFault e) := by
  simp [step, cycle, hrun, executeOne, hf]

theorem step_of_decode_error {w : Word} {d : DecodeError} (hf : fetch s = .ok w) (hd : decode w = .error d) :
    step s = .next (s.enterFault (illegalWord d)) := by
  simp [step, cycle, hrun, executeOne, hf, hd]

theorem step_of_decode_ok {w : Word} {i : Instr} (hf : fetch s = .ok w) (hd : decode w = .ok i) : step s = exec i s := by
  simp [step, cycle, hrun, executeOne, hf, hd]

theorem stepResult_of_running {t : State} (h : step s = .next t) : stepResult s = resultOf (.next t) := by
  simp [stepResult, hrun, h]

end

theorem step_of_unloaded {s : State} (hrun : s.run = .unloaded) : step s = .next s := by
  simp [step, cycle, hrun]

theorem step_of_faulted {s : State} {e : ErrorKind} (hrun : s.run = .faulted e) : step s = .next s := by
  simp [step, cycle, hrun]

theorem step_of_stopped {s : State} (hrun : s.run = .stopped) : step s = .next s := by
  simp [step, cycle, hrun]

theorem step_of_waiting {s : State} {x : Reg} (hrun : s.run = .awaitingKey x) (hl : s.keyLatch = none) : step s = .next s := by
  simp [step, cycle, hrun, completeWait, hl]

/-- The state after a wait that key `k` ends (44_keys_timers R205). -/
def waitCompleted (s : State) (x : Reg) (k : Key) : State := ((s.setV x (keyByte k)).setKeyLatch none).setRun .running

theorem step_of_latched {s : State} {x : Reg} {k : Key} (hrun : s.run = .awaitingKey x) (hl : s.keyLatch = some k) :
    step s = .next (waitCompleted s x k) := by
  simp [step, cycle, hrun, completeWait, hl, waitCompleted]

theorem resultOf_of_faulted {t : State} {e : ErrorKind} (h : t.run = .faulted e) : resultOf (.next t) = .err e := by
  simp [resultOf, h]

theorem resultOf_of_safe {t : State} (h : Safe t) : resultOf (.next t) = .ok := by
  cases hr : t.run with
  | faulted e => exact absurd hr (h e)
  | _ => simp [resultOf, hr]

/-- The errors of a running step with their causes, in the order of the checks (60_exceptions R230). -/
inductive Raises (s : State) : ErrorKind → Prop where
  | fetch {e : ErrorKind} (hf : fetch s = .error e) : Raises s e
  | decode {w : Word} {d : DecodeError} (hf : Machine.fetch s = .ok w) (hd : Sys2Proof.decode w = .error d) :
      Raises s (illegalWord d)
  | check {w : Word} {i : Instr} {e : ErrorKind} (hf : Machine.fetch s = .ok w) (hd : Sys2Proof.decode w = .ok i)
      (hc : i.check s = some e) : Raises s e

/-- A running step performs the effect of this instruction. -/
structure Performs (s : State) (i : Instr) : Prop where
  decodes : ∃ w, fetch s = .ok w ∧ decode w = .ok i
  passes : i.check s = none

/-- A step of a running block raises an error, or performs an instruction (30_encoding R82). -/
theorem step_of_running {s : State} (hrun : s.run = .running) :
    (∃ e, Raises s e ∧ step s = .next (s.enterFault e)) ∨ (∃ i, Performs s i ∧ step s = .next (i.effect s)) := by
  cases hf : fetch s with
  | error e => exact .inl ⟨e, .fetch hf, step_of_fetch_error hrun hf⟩
  | ok w =>
    cases hd : decode w with
    | error d => exact .inl ⟨_, .decode hf hd, step_of_decode_error hrun hf hd⟩
    | ok i =>
      rw [step_of_decode_ok hrun hf hd]
      cases hc : i.check s with
      | some e => exact .inl ⟨e, .check hf hd hc, exec_of_check_some hc⟩
      | none => exact .inr ⟨i, ⟨⟨w, hf, hd⟩, hc⟩, exec_of_check_none hc⟩

/-- Everything the next state of a step can be. -/
theorem eq_of_step {s t : State} (h : step s = .next t) :
    t = s ∨ (∃ x k, s.run = .awaitingKey x ∧ s.keyLatch = some k ∧ t = waitCompleted s x k) ∨
    (s.run = .running ∧ ∃ e, Raises s e ∧ t = s.enterFault e) ∨ (s.run = .running ∧ ∃ i, Performs s i ∧ t = i.effect s) := by
  have ht : ∀ u, step s = .next u → t = u := fun u hu => Host.Outcome.next.inj (h.symm.trans hu)
  cases hrun : s.run with
  | unloaded => exact .inl (ht s (step_of_unloaded hrun))
  | faulted e => exact .inl (ht s (step_of_faulted hrun))
  | stopped => exact .inl (ht s (step_of_stopped hrun))
  | awaitingKey x =>
    cases hl : s.keyLatch with
    | none => exact .inl (ht s (step_of_waiting hrun hl))
    | some k => exact .inr (.inl ⟨x, k, rfl, rfl, ht _ (step_of_latched hrun hl)⟩)
  | running =>
    obtain ⟨e, he, hu⟩ | ⟨i, hi, hu⟩ := step_of_running hrun
    · exact .inr (.inr (.inl ⟨rfl, e, he, ht _ hu⟩))
    · exact .inr (.inr (.inr ⟨rfl, i, hi, ht _ hu⟩))

/-! ### The obligations -/

/-- Settles O6: the word that `decodeBytes` decodes is the one the fetch reads. -/
theorem stepRunsDecodedInstruction : Obligations.StepRunsDecodedInstruction :=
  fun _ _ hrun hpc hd => step_of_decode_ok hrun (fetch_of_inside hpc) hd

/-- Settles O7: the fetch fails at its lowest address outside memory, and the step takes the error. -/
theorem fetchOutsideMemoryFaults : Obligations.FetchOutsideMemoryFaults :=
  fun s hrun hpc => ⟨_, step_of_fetch_error hrun (fetch_of_outside hpc), faultedFrom_enterFault s _⟩

/-- Settles O8: a word that no row matches is refused by the decoder, by O3. -/
theorem illegalWordFaults : Obligations.IllegalWordFaults := by
  rintro s w hrun hpc rfl hrows
  have hd := (illegalWordsMatchNoRow _).mpr hrows
  have hstep := step_of_decode_error hrun (fetch_of_inside hpc) hd
  exact ⟨_, hstep, faultedFrom_enterFault s _, (stepResult_of_running hrun hstep).trans (resultOf_of_faulted rfl)⟩

/-- Settles O9: the four idle run states, one lemma each. -/
theorem quiescentStepsChangeNothing : Obligations.QuiescentStepsChangeNothing := by
  refine fun s => ⟨fun hrun => ⟨step_of_unloaded hrun, ?_⟩, fun e hrun => ⟨step_of_faulted hrun, ?_⟩,
    fun hrun => ⟨step_of_stopped hrun, ?_⟩, fun x hrun hl => ⟨step_of_waiting hrun hl, ?_⟩⟩
  · simp [stepResult, hrun]
  · simp [stepResult, hrun]
  · simp [stepResult, hrun]
  · simp [stepResult, hrun, hl]

theorem keyByte_toNat (k : Key) : (keyByte k).toNat = k.val := by
  revert k
  decide

/-- Settles O10: the step is the completion of the wait, three writes. -/
theorem latchedKeyCompletesTheWait : Obligations.LatchedKeyCompletesTheWait := by
  intro s x k hrun hl
  refine ⟨_, step_of_latched hrun hl, ?_, fun r hr => ?_, rfl, rfl, ?_, ?_⟩
  · simp [waitCompleted, keyByte_toNat]
  · simp [waitCompleted, hr]
  · simp [waitCompleted, UnchangedExcept]
  · simp [stepResult, hrun, hl]

theorem effect_run (i : Instr) (s : State) : (i.effect s).run = s.run ∨ ∃ x, (i.effect s).run = .awaitingKey x := by
  cases i with
  | ldVxK x => exact .inr ⟨x, rfl⟩
  | ldVxMem x =>
    obtain ⟨v, hv⟩ := State.loadRegs_eq (regsUpTo x) s
    simp [Instr.effect, hv]
  | _ => exact .inl rfl

/-- Settles O11: the step raises an error, or performs an instruction, and an effect keeps the block running or begins a wait. -/
theorem everyErrorIsPrecise : Obligations.EveryErrorIsPrecise := by
  intro s hrun
  obtain ⟨e, -, hstep⟩ | ⟨i, -, hstep⟩ := step_of_running hrun
  · exact ⟨_, hstep, .inl ⟨e, faultedFrom_enterFault s e, (stepResult_of_running hrun hstep).trans (resultOf_of_faulted rfl)⟩⟩
  · have hgoes : (i.effect s).run = .running ∨ ∃ x, (i.effect s).run = .awaitingKey x := hrun ▸ effect_run i s
    have hsafe : Safe (i.effect s) := by
      intro e he
      simp [he] at hgoes
    exact ⟨_, hstep, .inr ⟨hsafe, (stepResult_of_running hrun hstep).trans (resultOf_of_safe hsafe), hgoes⟩⟩

end Sys2Proof

/-! PROOFS. The invariants (60_exceptions section 5): the canonical memory, what each step and port keeps of `StateInv` and of
`FaultExplained`, and the induction over port lists. -/

namespace Sys2Proof

open Sys2Proof.Machine

/-! ### The canonical memory -/

/-- In canonical form the cells of a memory are its bytes other than 0. -/
theorem mem_iff_read {m : Memory} (hm : m.wf) (c : Host.Cell) : c ∈ m ↔ m.read c.1 = c.2 ∧ c.2 ≠ Memory.unlisted := by
  induction m with
  | nil => simp [eq_comm]
  | cons d m ih =>
    obtain ⟨hrise, hcells⟩ := hm
    obtain ⟨hd, hrise⟩ := List.pairwise_cons.mp hrise
    obtain ⟨hd0, hcells⟩ := List.forall_mem_cons.mp hcells
    rw [List.mem_cons, Memory.read_cons, ih ⟨hrise, hcells⟩]
    by_cases hc : d.1 = c.1
    · have hread : Memory.read m c.1 = Memory.unlisted := Memory.read_unlisted m c.1 fun e he => hc ▸ (hd e he).ne'
      rw [if_pos hc, hread]
      constructor
      · rintro (rfl | ⟨h, h0⟩)
        · exact ⟨rfl, hd0.2⟩
        · exact absurd h.symm h0
      · exact fun h => .inl (Prod.ext hc.symm h.1.symm)
    · rw [if_neg hc, or_iff_right fun h : c = d => hc (h ▸ rfl)]

/-- Settles O18: both lists rise strictly and have the same cells. -/
theorem sameBytesSameMemory : Obligations.SameBytesSameMemory := by
  intro m n hm hn hread
  exact hm.1.eq_of_mem_iff hn.1 fun c => by rw [mem_iff_read hm, mem_iff_read hn, hread]

/-! ### `StateInv` -/

theorem effect_fontBase (i : Instr) (s : State) : (i.effect s).fontBase = s.fontBase := by
  cases i with
  | ldVxMem x =>
    obtain ⟨v, hv⟩ := State.loadRegs_eq (regsUpTo x) s
    simp [Instr.effect, hv]
  | _ => rfl

theorem effect_keyLatch (i : Instr) {s : State} (h : s.keyLatch = none) : (i.effect s).keyLatch = none := by
  cases i with
  | ldVxK => rfl
  | ldVxMem x =>
    obtain ⟨v, hv⟩ := State.loadRegs_eq (regsUpTo x) s
    simp [Instr.effect, hv, h]
  | _ => exact h

/-- 2NNN grows the stack only below its depth, by its check (10_state R27). -/
theorem effect_stack_length {i : Instr} {s : State} (hc : i.check s = none) (h : s.stack.length ≤ Config.stackDepth) :
    (i.effect s).stack.length ≤ Config.stackDepth := by
  cases i with
  | ret =>
    simp only [Instr.effect, State.setPc_stack, State.setStack_stack, List.length_tail]
    omega
  | call nnn =>
    have hne : s.stack.length ≠ Config.stackDepth := by simpa [Instr.check] using hc
    simp only [Instr.effect, State.setPc_stack, State.setStack_stack, List.length_cons]
    omega
  | ldVxMem x =>
    obtain ⟨v, hv⟩ := State.loadRegs_eq (regsUpTo x) s
    simpa [Instr.effect, hv] using h
  | _ => exact h

/-- A store lies inside memory, by its check (20_memory R54). -/
theorem effect_mem_wf {i : Instr} {s : State} (hc : i.check s = none) (h : s.mem.wf) : (i.effect s).mem.wf := by
  rw [effect_mem]
  obtain hnil | hlen := stores_length i s
  · rw [hnil]
    exact h
  · obtain h0 | hin := check_of_dataBytes hc
    · rw [List.length_eq_zero_iff.mp (hlen.trans h0)]
      exact h
    · exact Memory.wf_writeBlock _ _ _ (hlen ▸ hin) h

theorem keyLatch_eq_none_of_running {s : State} (h : StateInv s) (hrun : s.run = .running) : s.keyLatch = none := by
  by_contra hl
  obtain ⟨x, hx⟩ := h.latchOnlyWhileWaiting hl
  simp [hrun] at hx

theorem stateInv_effect {i : Instr} {s : State} (h : StateInv s) (hrun : s.run = .running) (hc : i.check s = none) :
    StateInv (i.effect s) where
  memCanonical := effect_mem_wf hc h.memCanonical
  stackBounded := effect_stack_length hc h.stackBounded
  fontBelowProgram := effect_fontBase i s ▸ h.fontBelowProgram
  latchOnlyWhileWaiting := fun hl => absurd (effect_keyLatch i (keyLatch_eq_none_of_running h hrun)) hl

/-- A state that differs only in registers, timers, keys and the like, with no key latched, keeps the invariant. -/
theorem stateInv_of_no_latch {s t : State} (h : StateInv s) (hmem : t.mem = s.mem) (hstack : t.stack = s.stack)
    (hfont : t.fontBase = s.fontBase) (hl : t.keyLatch = none) : StateInv t where
  memCanonical := hmem ▸ h.memCanonical
  stackBounded := hstack ▸ h.stackBounded
  fontBelowProgram := hfont ▸ h.fontBelowProgram
  latchOnlyWhileWaiting := fun hne => absurd hl hne

/-- Settles O14: an effect keeps the four clauses, and every other step writes none of memory, stack and font latch. -/
theorem stepKeepsTheInvariant : Obligations.StepKeepsTheInvariant := by
  intro s t h hstep
  obtain rfl | ⟨x, k, -, -, rfl⟩ | ⟨hrun, e, -, rfl⟩ | ⟨hrun, i, hi, rfl⟩ := eq_of_step hstep
  · exact h
  · exact stateInv_of_no_latch h rfl rfl rfl rfl
  · exact stateInv_of_no_latch h rfl rfl rfl (keyLatch_eq_none_of_running (s := s) h hrun)
  · exact stateInv_effect h hrun hi.passes

/-! ### Loading -/

theorem loadWith_of_loadCheck_none {font : Font} {program : List Byte} {programBase fontBase : Nat} (s : State)
    (h : loadCheck program.length programBase fontBase = none) :
    loadWith font program programBase fontBase s = loadedState font program programBase fontBase s := by
  simp [loadWith, h]

theorem loadWith_of_loadCheck_some {font : Font} {program : List Byte} {programBase fontBase : Nat} {e : ErrorKind} (s : State)
    (h : loadCheck program.length programBase fontBase = some e) : loadWith font program programBase fontBase s = s := by
  simp [loadWith, h]

theorem loadResult_of_loadCheck_none {program : List Byte} {programBase fontBase : Nat}
    (h : loadCheck program.length programBase fontBase = none) : loadResult program programBase fontBase = .ok := by
  simp [loadResult, h]

theorem loadResult_of_loadCheck_some {program : List Byte} {programBase fontBase : Nat} {e : ErrorKind}
    (h : loadCheck program.length programBase fontBase = some e) : loadResult program programBase fontBase = .err e := by
  simp [loadResult, h]

theorem stateInv_loadedState (font : Font) {program : List Byte} {programBase fontBase : Nat} (s : State)
    (h : loadCheck program.length programBase fontBase = none) : StateInv (loadedState font program programBase fontBase s) := by
  obtain ⟨-, hfont, hprogram⟩ := (loadCheck_none _ _ _).mp h
  have hmem := wf_loadedMemory font program programBase fontBase (hfont.trans (by decide)) hprogram
  have hfont' : fontBase % 2 ^ 16 + Config.fontSize ≤ 0x200 := by
    rw [Nat.mod_eq_of_lt (by omega)]
    exact hfont
  exact ⟨hmem, Nat.zero_le _, hfont', fun hl => absurd rfl hl⟩

theorem stateInv_load (program : List Byte) (programBase fontBase : Nat) {s : State} (h : StateInv s) :
    StateInv (load program programBase fontBase s) := by
  unfold load
  cases hc : loadCheck program.length programBase fontBase with
  | none =>
    rw [loadWith_of_loadCheck_none s hc]
    exact stateInv_loadedState Config.font s hc
  | some e =>
    rw [loadWith_of_loadCheck_some s hc]
    exact h

/-! ### The ports -/

/-- Every transaction that answers a next state, by its port (60_exceptions R240). -/
theorem transact_cases {p : Port} {s t : State} (h : transact p s = .next t) :
    (∃ program programBase fontBase, p = .load program programBase fontBase ∧ t = load program programBase fontBase s) ∨
    (p = .step ∧ step s = .next t) ∨ (p = .tickTimers ∧ t = tickTimers s) ∨ (p = .framebufferSnapshot ∧ t = s) ∨
    (∃ (k : Key) (pressed : Bool), p = .setKey k.val pressed ∧
      t = (s.setKeyFlag k pressed).setKeyLatch (latchAfter s k pressed)) ∨
    (p = .terminate ∧ t = terminate s) := by
  cases p with
  | setKey k pressed =>
    simp only [transact, setKey] at h
    split at h <;> cases h
    next hk => exact .inr (.inr (.inr (.inr (.inl ⟨⟨k, hk⟩, pressed, rfl, rfl⟩))))
  | step => exact .inr (.inl ⟨rfl, h⟩)
  | load | tickTimers | framebufferSnapshot | terminate =>
    cases h
    simp

/-- No other report changes the latch (60_exceptions R243). -/
theorem latchAfter_eq_self {s : State} {k : Key} {pressed : Bool}
    (h : ¬((∃ x, s.run = .awaitingKey x) ∧ pressed = true ∧ s.keyFlag k = false ∧ s.keyLatch = none)) :
    latchAfter s k pressed = s.keyLatch := by
  unfold latchAfter
  split
  next x hrun =>
    rw [if_neg]
    simpa [hrun] using h
  all_goals rfl

theorem stateInv_setKey {s : State} (k : Key) (pressed : Bool) (h : StateInv s) :
    StateInv ((s.setKeyFlag k pressed).setKeyLatch (latchAfter s k pressed)) := by
  refine ⟨h.memCanonical, h.stackBounded, h.fontBelowProgram, fun hl => ?_⟩
  by_contra hrun
  have hkeep : latchAfter s k pressed = s.keyLatch := latchAfter_eq_self fun h => hrun h.1
  exact hrun (h.latchOnlyWhileWaiting (hkeep ▸ hl))

theorem terminate_cases (s : State) :
    (terminate s = s ∧ (s.run = .unloaded ∨ (∃ e, s.run = .faulted e) ∨ s.run = .stopped)) ∨
    (terminate s = (s.setRun .stopped).setKeyLatch none ∧ (s.run = .running ∨ ∃ x, s.run = .awaitingKey x)) := by
  cases hrun : s.run <;> simp [terminate, hrun]

theorem stateInv_terminate {s : State} (h : StateInv s) : StateInv (terminate s) := by
  obtain ⟨heq, -⟩ | ⟨heq, -⟩ := terminate_cases s
  · rwa [heq]
  · rw [heq]
    exact stateInv_of_no_latch h rfl rfl rfl rfl

/-- Settles O15: by the port. -/
theorem portsKeepTheInvariant : Obligations.PortsKeepTheInvariant := by
  intro p s t h ht
  obtain ⟨program, programBase, fontBase, -, rfl⟩ | ⟨-, hstep⟩ | ⟨-, rfl⟩ | ⟨-, rfl⟩ | ⟨k, pressed, -, rfl⟩ | ⟨-, rfl⟩ :=
    transact_cases ht
  · exact stateInv_load program programBase fontBase h
  · exact stepKeepsTheInvariant s t h hstep
  · exact ⟨h.memCanonical, h.stackBounded, h.fontBelowProgram, h.latchOnlyWhileWaiting⟩
  · exact h
  · exact stateInv_setKey k pressed h
  · exact stateInv_terminate h

/-! ### `FaultExplained` -/

theorem faultExplained_of_safe {s : State} (h : Safe s) : FaultExplained s := by
  cases hrun : s.run with
  | faulted e => exact absurd hrun (h e)
  | _ => simp [FaultExplained, hrun]

/-- The state after an instruction's own check failed shows the check (60_exceptions R230). -/
theorem faultExplained_of_check {s : State} {w : Word} {i : Instr} {e : ErrorKind} (hf : fetch s = .ok w)
    (hd : decode w = .ok i) (hc : i.check s = some e) : FaultExplained (s.enterFault e) := by
  have haddr : ∀ {j : Instr}, decode w = .ok j → (firstBadAddress s.i.toNat j.dataBytes).map ErrorKind.addressError = some e →
      FaultExplained (s.enterFault e) := by
    intro j hdj hj
    obtain ⟨a, ha, rfl⟩ := Option.map_eq_some_iff.mp hj
    exact .inr ⟨w, j, hf, hdj, ha⟩
  cases i with
  | ret =>
    obtain ⟨hs, rfl⟩ : s.stack = [] ∧ .stackUnderflow = e := by simpa [Instr.check] using hc
    obtain ⟨-, rfl⟩ := isWordOf_of_decode hd
    exact ⟨hs, hf⟩
  | call nnn =>
    obtain ⟨hs, rfl⟩ : s.stack.length = Config.stackDepth ∧ .stackOverflow = e := by simpa [Instr.check] using hc
    exact ⟨hs, w, nnn, hf, hd⟩
  | skp x =>
    obtain ⟨hx, rfl⟩ : 15 < (s.getV x).toNat ∧ .keyIndexError (s.getV x) = e := by simpa [Instr.check] using hc
    exact ⟨hx, w, x, hf, .inl hd, rfl⟩
  | sknp x =>
    obtain ⟨hx, rfl⟩ : 15 < (s.getV x).toNat ∧ .keyIndexError (s.getV x) = e := by simpa [Instr.check] using hc
    exact ⟨hx, w, x, hf, .inr hd, rfl⟩
  | _ => exact haddr hd hc

/-- A step that raises an error leaves a state that shows its cause (60_exceptions R225). -/
theorem faultExplained_of_raises {s : State} {e : ErrorKind} (h : Raises s e) : FaultExplained (s.enterFault e) := by
  cases h with
  | fetch hf =>
    have haddr := hf
    rw [fetch_eq] at haddr
    split at haddr <;> cases haddr
    exact .inl hf
  | decode hf hd =>
    cases eq_illegal_of_decode_error hd
    exact ⟨hf, hd⟩
  | check hf hd hc => exact faultExplained_of_check hf hd hc

theorem faultExplained_load (program : List Byte) (programBase fontBase : Nat) {s : State} (h : FaultExplained s) :
    FaultExplained (load program programBase fontBase s) := by
  unfold load
  cases hc : loadCheck program.length programBase fontBase with
  | none =>
    rw [loadWith_of_loadCheck_none s hc]
    exact faultExplained_of_safe fun e he => by cases he
  | some e =>
    rw [loadWith_of_loadCheck_some s hc]
    exact h

theorem faultExplained_terminate {s : State} (h : FaultExplained s) : FaultExplained (terminate s) := by
  obtain ⟨heq, -⟩ | ⟨heq, -⟩ := terminate_cases s
  · rwa [heq]
  · rw [heq]
    exact faultExplained_of_safe fun e he => by cases he

theorem faultExplained_step {s t : State} (h : FaultExplained s) (hstep : step s = .next t) : FaultExplained t := by
  obtain rfl | ⟨x, k, -, -, rfl⟩ | ⟨hrun, e, he, rfl⟩ | ⟨hrun, i, -, rfl⟩ := eq_of_step hstep
  · exact h
  · exact faultExplained_of_safe fun e he => by cases he
  · exact faultExplained_of_raises he
  · refine faultExplained_of_safe fun e he => ?_
    have hgoes := effect_run i s
    simp [he, hrun] at hgoes

/-- Settles O16: by the port; a fault is entered by a step alone, and the other ports leave what explains it as it is. -/
theorem faultedStatesStayExplained : Obligations.FaultedStatesStayExplained := by
  intro p s t h ht
  obtain ⟨program, programBase, fontBase, -, rfl⟩ | ⟨-, hstep⟩ | ⟨-, rfl⟩ | ⟨-, rfl⟩ | ⟨k, pressed, -, rfl⟩ | ⟨-, rfl⟩ :=
    transact_cases ht
  · exact faultExplained_load program programBase fontBase h
  · exact faultExplained_step h hstep
  · exact h
  · exact h
  · exact h
  · exact faultExplained_terminate h

/-! ### Port lists -/

/-- What every port of a list keeps holds after the list, refused calls included (60_exceptions R243). -/
theorem runPorts_induction {P : State → Prop} (ports : List Port) {s : State} (hs : P s)
    (hkeep : ∀ p ∈ ports, ∀ t u, P t → transact p t = .next u → P u) : P (runPorts ports s) := by
  induction ports generalizing s with
  | nil => exact hs
  | cons p ports ih =>
    obtain ⟨hp, hports⟩ := List.forall_mem_cons.mp hkeep
    unfold runPorts
    split
    next t ht => exact ih (hp s t hs ht) hports
    next => exact ih hs hports
    next => exact ih hs hports

/-! ### The obligations on reset and on port lists -/

/-- Settles O12: field by field; the framebuffer is the blank one and memory lists no cell. -/
theorem resetIsThePowerOnState : Obligations.ResetIsThePowerOnState := by
  exact ⟨by decide, rfl, rfl, rfl, rfl, rfl, Framebuffer.pixel_blank, by decide, rfl, rfl, rfl, fun _ => rfl⟩

/-- Settles O13: memory and stack are empty, and the block is `Unloaded`. -/
theorem resetMeetsTheInvariants : Obligations.ResetMeetsTheInvariants :=
  ⟨⟨Memory.wf_nil, Nat.zero_le _, by decide, fun hl => absurd rfl hl⟩, trivial⟩

/-- Settles O17: the two invariants hold at reset and every port keeps them. -/
theorem reachableStatesMeetTheInvariants : Obligations.ReachableStatesMeetTheInvariants :=
  fun ports => ⟨runPorts_induction ports resetMeetsTheInvariants.1 fun p _ => portsKeepTheInvariant p,
    runPorts_induction ports resetMeetsTheInvariants.2 fun p _ => faultedStatesStayExplained p⟩

/-- `Faulted` and `Stopped`, which only a load leaves (60_exceptions R228, R249). -/
def Halted (s : State) : Prop := s.run = .stopped ∨ ∃ e, s.run = .faulted e

theorem step_run_of_halted {s t : State} (hs : Halted s) (hstep : step s = .next t) : t.run = s.run := by
  obtain rfl | ⟨x, k, hrun, -, -⟩ | ⟨hrun, -⟩ | ⟨hrun, -⟩ := eq_of_step hstep
  · rfl
  all_goals simp [Halted, hrun] at hs

theorem terminate_run_of_halted {s : State} (hs : Halted s) : (terminate s).run = s.run := by
  obtain ⟨heq, -⟩ | ⟨-, hrun | ⟨x, hrun⟩⟩ := terminate_cases s
  · rw [heq]
  all_goals simp [Halted, hrun] at hs

theorem transact_run_of_halted {p : Port} {s t : State} (hp : p.isLoad = false) (hs : Halted s) (ht : transact p s = .next t) :
    t.run = s.run := by
  obtain ⟨program, programBase, fontBase, rfl, -⟩ | ⟨-, hstep⟩ | ⟨-, rfl⟩ | ⟨-, rfl⟩ | ⟨k, pressed, -, rfl⟩ | ⟨-, rfl⟩ :=
    transact_cases ht
  · cases hp
  · exact step_run_of_halted hs hstep
  · rfl
  · rfl
  · rfl
  · exact terminate_run_of_halted hs

theorem runPorts_run_of_halted {ports : List Port} {s : State} (hp : ∀ p ∈ ports, p.isLoad = false) (hs : Halted s) :
    (runPorts ports s).run = s.run := by
  refine runPorts_induction (P := fun t => t.run = s.run) ports rfl fun p hmem t u ht hu => ?_
  have htHalted : Halted t := by rwa [Halted, ht]
  exact (transact_run_of_halted (hp p hmem) htHalted hu).trans ht

/-- Settles O59: every port but `load` keeps the run state of a halted block. -/
theorem onlyLoadLeavesFaultedOrStopped : Obligations.OnlyLoadLeavesFaultedOrStopped :=
  fun _ _ hp => ⟨fun e hrun => (runPorts_run_of_halted hp (.inr ⟨e, hrun⟩)).trans hrun,
    fun hrun => (runPorts_run_of_halted hp (.inl hrun)).trans hrun⟩

end Sys2Proof

/-! PROOFS. Whole-machine rules: who writes memory, the frame of all instructions, and what an instruction and a step do not read. -/

namespace Sys2Proof

open Sys2Proof.Machine

/-! ### Frames -/

theorem UnchangedExcept.mono {parts parts' : List Part} {s t : State} (h : UnchangedExcept parts s t) (hsub : parts ⊆ parts') :
    UnchangedExcept parts' s t := by
  obtain ⟨hv, hi, hpc, hstack, hdt, hst, hfb, hkeys, hrun, hfont, hlatch, hmem, hdraws⟩ := h
  exact ⟨hv.imp_left (@hsub _), hi.imp_left (@hsub _), hpc.imp_left (@hsub _), hstack.imp_left (@hsub _), hdt.imp_left (@hsub _),
    hst.imp_left (@hsub _), hfb.imp_left (@hsub _), hkeys.imp_left (@hsub _), hrun.imp_left (@hsub _), hfont.imp_left (@hsub _),
    hlatch.imp_left (@hsub _), hmem.imp_left (@hsub _), hdraws.imp_left (@hsub _)⟩

theorem stores_eq_nil {i : Instr} (s : State) (hB : ∀ x, i ≠ .ldB x) (hMem : ∀ x, i ≠ .ldMemVx x) : i.stores s = [] := by
  cases i with
  | ldB x => exact absurd rfl (hB x)
  | ldMemVx x => exact absurd rfl (hMem x)
  | _ => rfl

theorem effect_mem_of_not_store {i : Instr} (s : State) (hB : ∀ x, i ≠ .ldB x) (hMem : ∀ x, i ≠ .ldMemVx x) :
    (i.effect s).mem = s.mem := by
  rw [effect_mem, stores_eq_nil s hB hMem]
  rfl

theorem exec_mem_of_not_store {i : Instr} {s t : State} (h : exec i s = .next t) (hB : ∀ x, i ≠ .ldB x)
    (hMem : ∀ x, i ≠ .ldMemVx x) : t.mem = s.mem := by
  obtain ⟨e, -, rfl⟩ | ⟨-, rfl⟩ := exec_cases h
  · rfl
  · exact effect_mem_of_not_store s hB hMem

theorem transact_mem {p : Port} {s t : State} (hload : p.isLoad = false) (hstep : p ≠ .step) (h : transact p s = .next t) :
    t.mem = s.mem := by
  obtain ⟨program, programBase, fontBase, rfl, -⟩ | ⟨rfl, -⟩ | ⟨-, rfl⟩ | ⟨-, rfl⟩ | ⟨k, pressed, -, rfl⟩ | ⟨-, rfl⟩ :=
    transact_cases h
  · cases hload
  · exact absurd rfl hstep
  · rfl
  · rfl
  · rfl
  · obtain ⟨heq, -⟩ | ⟨heq, -⟩ := terminate_cases s <;> rw [heq]
    rfl

/-- A step keeps memory unless it performs FX33 or FX55 (20_memory R58). -/
theorem step_mem {s t : State} (h : step s = .next t) :
    t.mem = s.mem ∨ (s.run = .running ∧ ∃ i, Performs s i ∧ ∃ x, i = .ldB x ∨ i = .ldMemVx x) := by
  obtain rfl | ⟨x, k, -, -, rfl⟩ | ⟨-, e, -, rfl⟩ | ⟨hrun, i, hi, rfl⟩ := eq_of_step h
  · exact .inl rfl
  · exact .inl rfl
  · exact .inl rfl
  · by_cases hst : ∃ x, i = .ldB x ∨ i = .ldMemVx x
    · exact .inr ⟨hrun, i, hi, hst⟩
    · exact .inl (effect_mem_of_not_store s (fun x hx => hst ⟨x, .inl hx⟩) fun x hx => hst ⟨x, .inr hx⟩)

/-- Settles O19: the effect of an instruction without stores, and every port but `load` and `step`, leaves memory as it is. -/
theorem onlyLoadAndBlockStoresWriteMemory : Obligations.OnlyLoadAndBlockStoresWriteMemory := by
  refine ⟨fun i s t h hB hMem a => ?_, fun p s t hload hstep h a => ?_, fun s t h => ?_, fun x y n s t h => ?_⟩
  · rw [exec_mem_of_not_store h hB hMem]
  · rw [transact_mem hload hstep h]
  · obtain hmem | ⟨hrun, i, hi, x, hx⟩ := step_mem h
    · exact .inl fun a => by rw [hmem]
    · obtain ⟨w, hf, hd⟩ := hi.decodes
      exact .inr ⟨hrun, w, x, hf, by obtain rfl | rfl := hx; exacts [.inl hd, .inr hd]⟩
  · obtain ⟨e, -, rfl⟩ | ⟨-, rfl⟩ := exec_cases h
    · exact .inl ⟨e, faultedFrom_enterFault s e⟩
    · refine .inr ⟨(effect_unchangedExcept (.drw x y n) s).mono (by simp [Instr.writesParts]), fun r hr => effect_getV s ?_⟩
      simpa [Instr.writesV] using hr

/-- Settles O20: an instruction faults or has its effect, whose three frames are lemmas. -/
theorem instructionsWriteOnlyTheirParts : Obligations.InstructionsWriteOnlyTheirParts := by
  intro i s t h
  obtain ⟨e, -, rfl⟩ | ⟨-, rfl⟩ := exec_cases h
  · exact .inl ⟨e, faultedFrom_enterFault s e⟩
  · exact .inr ⟨effect_unchangedExcept i s, fun r hr => effect_getV s hr, fun a ha => effect_read i s ha⟩

/-! ### Registers that are not read -/

theorem setV_setV_same (s : State) (x : Reg) (b c : Byte) : (s.setV x b).setV x c = s.setV x c := by
  simp [State.setV]

theorem setV_setV_comm (s : State) {r x : Reg} (h : r ≠ x) (b c : Byte) :
    (s.setV r b).setV x c = (s.setV x c).setV r b := by
  simp only [State.setV, Vector.set_comm b c (Fin.val_ne_of_ne h)]

/-- A write of one register sees the old value of no register. -/
theorem setV_setV (s : State) (r x : Reg) (b c : Byte) :
    (s.setV r b).setV x c = if r = x then s.setV x c else (s.setV x c).setV r b := by
  split
  next h => rw [h, setV_setV_same]
  next h => exact setV_setV_comm s h b c

theorem setResultAndFlag_setV (s : State) (r x : Reg) (b result : Byte) (flag : Bool) :
    (s.setV r b).setResultAndFlag x result flag =
      if r = x ∨ r = Reg.vf then s.setResultAndFlag x result flag else (s.setResultAndFlag x result flag).setV r b := by
  unfold State.setResultAndFlag
  rw [setV_setV s r x b result]
  by_cases hx : r = x
  · rw [if_pos hx, if_pos (.inl hx)]
  · rw [if_neg hx, setV_setV _ r]
    simp only [hx, false_or]

theorem loadRegs_setV (regs : List Reg) (s : State) (r : Reg) (b : Byte) :
    (s.setV r b).loadRegs regs = if r ∈ regs then s.loadRegs regs else (s.loadRegs regs).setV r b := by
  induction regs generalizing s with
  | nil => rfl
  | cons k regs ih =>
    have hstep : ∀ t : State, t.loadRegs (k :: regs) = (t.setV k (t.mem.read (t.indexBase + k.val))).loadRegs regs := fun _ => rfl
    rw [hstep, hstep, State.setV_mem, State.indexBase_setV, setV_setV]
    by_cases hk : r = k
    · simp [hk]
    · simp [hk, ih]

theorem setV_setV_advance (s : State) (r x : Reg) (b c : Byte) :
    ((s.setV r b).setV x c).advance = if r = x then (s.setV x c).advance else (s.setV x c).advance.setV r b := by
  rw [setV_setV]
  split <;> rfl

theorem advance_ite_setV {c : Prop} [Decidable c] (t u : State) (r : Reg) (b : Byte) :
    (if c then t else u.setV r b).advance = if c then t.advance else u.advance.setV r b := by
  split <;> rfl

theorem effect_setV {i : Instr} {r : Reg} (s : State) (b : Byte) (h : i.readsV r = false) :
    i.effect (s.setV r b) = if i.writesV r then i.effect s else (i.effect s).setV r b := by
  have hread : ∀ q, i.readsV q = true → (s.setV r b).getV q = s.getV q := by
    intro q hq
    exact State.getV_setV_other s r q b fun hqr => by simp [← hqr, hq] at h
  cases i with
  | ldImm | addImm | ldReg | orReg | andReg | xorReg | ldVxDt =>
    simp [Instr.effect, Instr.writesV, hread, Instr.readsV, setV_setV_advance]
  | addReg | subReg | subn | shr | shl =>
    simp [Instr.effect, Instr.writesV, hread, Instr.readsV, setResultAndFlag_setV, advance_ite_setV]
  | rnd x nn =>
    simp only [Instr.effect, Instr.writesV, State.setV_draws, setV_setV s r x, decide_eq_true_eq]
    split <;> rfl
  | drw x y n =>
    have hblit : (s.setV r b).blit x y n = s.blit x y n := by simp [State.blit, hread, Instr.readsV]
    have hfb : ∀ fb, (s.setV r b).setFb fb = (s.setFb fb).setV r b := fun _ => rfl
    simp [Instr.effect, Instr.writesV, hblit, hfb, setV_setV_advance]
  | ldVxMem => simp [Instr.effect, Instr.writesV, loadRegs_setV, advance_ite_setV, mem_regsUpTo]
  | ldMemVx x =>
    have hmap : (regsUpTo x).map (s.setV r b).getV = (regsUpTo x).map s.getV :=
      List.map_congr_left fun q hq => hread q (by simpa [Instr.readsV] using (mem_regsUpTo x q).mp hq)
    simp only [Instr.effect, hmap]
    rfl
  | _ =>
    simp [Instr.effect, Instr.writesV, hread, Instr.readsV]
    rfl

theorem check_setV {i : Instr} {r : Reg} (s : State) (b : Byte) (h : i.readsV r = false) :
    i.check (s.setV r b) = i.check s := by
  cases i with
  | skp x | sknp x =>
    have hx : x ≠ r := by simpa [Instr.readsV, eq_comm] using h
    simp only [Instr.check, State.getV_setV_other s r x b hx]
  | _ => rfl

/-- Settles O21: check and effect ignore the register, and the effect overwrites it or leaves it. -/
theorem instructionsReadOnlyTheirRegisters : Obligations.InstructionsReadOnlyTheirRegisters := by
  intro i s r b h
  refine ⟨_, _, exec_eq i s, exec_eq i (s.setV r b), ?_, fun hw => ?_⟩
  · rw [check_setV s b h]
    cases i.check s with
    | some e => exact setV_setV_same (s.enterFault e) r b 0
    | none =>
      simp only [Option.elim_none, effect_setV s b h]
      split
      · rfl
      · exact setV_setV_same _ r b 0
  · rw [check_setV s b h]
    cases i.check s with
    | some e => exact .inl ⟨e, faultedFrom_enterFault s e⟩
    | none => simp [effect_setV s b h, hw]

/-! ### The sound timer -/

theorem loadRegs_setSt (regs : List Reg) (s : State) (b : Byte) : (s.setSt b).loadRegs regs = (s.loadRegs regs).setSt b := by
  induction regs generalizing s with
  | nil => rfl
  | cons k regs ih => exact ih (s.setV k (s.mem.read (s.indexBase + k.val)))

theorem effect_setSt (i : Instr) (s : State) (b : Byte) : (i.effect (s.setSt b)).setSt 0 = (i.effect s).setSt 0 := by
  cases i with
  | ldVxMem x => simp only [Instr.effect, loadRegs_setSt]; rfl
  | _ => rfl

theorem check_setSt (i : Instr) (s : State) (b : Byte) : i.check (s.setSt b) = i.check s := by
  cases i <;> rfl

theorem exec_setSt (i : Instr) (s : State) (b : Byte) :
    ∃ t t', exec i s = .next t ∧ exec i (s.setSt b) = .next t' ∧ t'.setSt 0 = t.setSt 0 := by
  refine ⟨_, _, exec_eq i s, exec_eq i (s.setSt b), ?_⟩
  rw [check_setSt]
  cases i.check s with
  | some e => rfl
  | none => exact effect_setSt i s b

theorem step_setSt (s : State) (b : Byte) :
    ∃ t t', step s = .next t ∧ step (s.setSt b) = .next t' ∧ t'.setSt 0 = t.setSt 0 := by
  cases hrun : s.run with
  | unloaded => exact ⟨_, _, step_of_unloaded hrun, step_of_unloaded (s := s.setSt b) hrun, rfl⟩
  | faulted e => exact ⟨_, _, step_of_faulted hrun, step_of_faulted (s := s.setSt b) hrun, rfl⟩
  | stopped => exact ⟨_, _, step_of_stopped hrun, step_of_stopped (s := s.setSt b) hrun, rfl⟩
  | awaitingKey x =>
    cases hl : s.keyLatch with
    | none => exact ⟨_, _, step_of_waiting hrun hl, step_of_waiting (s := s.setSt b) hrun hl, rfl⟩
    | some k => exact ⟨_, _, step_of_latched hrun hl, step_of_latched (s := s.setSt b) hrun hl, rfl⟩
  | running =>
    cases hf : fetch s with
    | error e => exact ⟨_, _, step_of_fetch_error hrun hf, step_of_fetch_error (s := s.setSt b) hrun hf, rfl⟩
    | ok w =>
      cases hd : decode w with
      | error d => exact ⟨_, _, step_of_decode_error hrun hf hd, step_of_decode_error (s := s.setSt b) hrun hf hd, rfl⟩
      | ok i =>
        rw [step_of_decode_ok hrun hf hd, step_of_decode_ok (s := s.setSt b) hrun hf hd]
        exact exec_setSt i s b

theorem resultOf_congr {t t' : State} (h : t'.run = t.run) : resultOf (.next t') = resultOf (.next t) := by
  simp only [resultOf, h]

/-- Settles O22: the next states agree but for the sound timer, and a result is read off the run state. -/
theorem soundTimerIsNeverRead : Obligations.SoundTimerIsNeverRead := by
  intro s b
  obtain ⟨t, t', ht, ht', heq⟩ := step_setSt s b
  refine ⟨t, t', ht, ht', heq, ?_⟩
  cases hrun : s.run with
  | running =>
    have hrun' : t'.run = t.run := (State.setSt_run t' 0).symm.trans (heq ▸ State.setSt_run t 0)
    rw [stepResult_of_running hrun ht, stepResult_of_running (s := s.setSt b) hrun ht', resultOf_congr hrun']
  | awaitingKey x => cases hl : s.keyLatch <;> simp [stepResult, hrun, hl]
  | unloaded | faulted e | stopped => simp [stepResult, hrun]

end Sys2Proof

/-! PROOFS. Results of single instructions: the ALU with its flags (41_alu sections 2 to 4), jumps and calls (40_control_flow), the index
register (42_index_memory section 1), and the key instructions (44_keys_timers). -/

namespace Sys2Proof

open Sys2Proof.Machine

/-! ### Words -/

/-- The digits of a `reg_reg` word whose last digit is fixed as its family digit is (30_encoding R73). -/
theorem encodeRegReg_eq_ofNat_fixed_add (f : Nat) (x y : Reg) (n : Nat) :
    encodeRegReg f x y n = BitVec.ofNat 16 (f * 0x1000 + n + 0x100 * x.val + 0x10 * y.val) := by
  rw [encodeRegReg_eq_ofNat]
  congr 1
  omega

/-- The digits of an `addr` word (30_encoding R73). -/
theorem encode_sys (nnn : Addr) : encode (.sys nnn) = BitVec.ofNat 16 nnn.toNat := by
  rw [encode, encodeAddr, Nat.zero_mul, Nat.zero_add]

/-! ### Logic -/

/-- Settles O26: each is one register write, of the bitwise operation on the two bytes. -/
theorem logicIsBitwiseWithoutFlag : Obligations.LogicIsBitwiseWithoutFlag := by
  intro x y s
  refine ⟨encodeRegReg_eq_ofNat_fixed_add 0x8 x y 0x1, encodeRegReg_eq_ofNat_fixed_add 0x8 x y 0x2,
    encodeRegReg_eq_ofNat_fixed_add 0x8 x y 0x3, ?_, ?_, ?_⟩
  · exact ⟨_, _, exec_of_check_none rfl, writesOneRegister_setV_advance s x _, fun _ => BitVec.getLsbD_or⟩
  · exact ⟨_, _, exec_of_check_none rfl, writesOneRegister_setV_advance s x _, fun _ => BitVec.getLsbD_and⟩
  · exact ⟨_, _, exec_of_check_none rfl, writesOneRegister_setV_advance s x _, fun _ => BitVec.getLsbD_xor⟩

/-! ### A result and a flag -/

/-- The flag is written last, so VF holds it even when `x` is 15 (41_alu R132). -/
theorem writesResultThenFlag_setResultAndFlag_advance (s : State) (x : Reg) (result : Byte) (flag : Bool) :
    WritesResultThenFlag x result (flagByte flag) s (s.setResultAndFlag x result flag).advance := by
  refine ⟨?_, fun hx => ?_, fun r hr hvf => ?_, pcIs_of_pc_eq_add 2 rfl, ?_⟩
  · simp [State.getV_setResultAndFlag]
  · simp [State.getV_setResultAndFlag, hx]
  · simp [State.getV_setResultAndFlag, hr, hvf]
  · simp [UnchangedExcept, State.setResultAndFlag]

theorem flagByte_eq_ite {b : Bool} {p : Prop} [Decidable p] (h : b = true ↔ p) : flagByte b = if p then 1 else 0 := by
  rw [flagByte, if_congr h rfl rfl]
  rfl

/-- The exact difference of two bytes, reduced modulo 256, is their difference as bytes. -/
theorem ofInt_toNat_sub (a b : Byte) : BitVec.ofInt 8 ((a.toNat : Int) - b.toNat) = a - b := by
  have := a.isLt
  have := b.isLt
  apply BitVec.eq_of_toNat_eq
  rw [BitVec.toNat_ofInt, BitVec.toNat_sub]
  omega

theorem shiftRight_one_eq_ofNat (b : Byte) : b >>> 1 = BitVec.ofNat 8 (b.toNat / 2) := by
  apply BitVec.eq_of_toNat_eq
  rw [BitVec.toNat_ushiftRight, BitVec.toNat_ofNat, Nat.shiftRight_eq_div_pow]
  omega

theorem shiftLeft_one_eq_ofNat (b : Byte) : b <<< 1 = BitVec.ofNat 8 (2 * b.toNat % 256) := by
  apply BitVec.eq_of_toNat_eq
  rw [BitVec.toNat_shiftLeft, BitVec.toNat_ofNat, Nat.shiftLeft_eq]
  omega

/-- Settles O27: the byte sum, and the carry as a comparison. -/
theorem addRegisterSetsCarry : Obligations.AddRegisterSetsCarry := by
  refine fun x y => ⟨encodeRegReg_eq_ofNat_fixed_add 0x8 x y 0x4, fun s => ⟨_, exec_of_check_none rfl, ?_⟩⟩
  rw [ofNat_toNat_add_mod_256, ← flagByte_eq_ite (carry_iff _ _)]
  exact writesResultThenFlag_setResultAndFlag_advance s x _ _

/-- Settles O28: the byte difference, and no-borrow as a comparison, with the operands in both orders. -/
theorem subtractionsSetNoBorrow : Obligations.SubtractionsSetNoBorrow := by
  refine fun x y => ⟨⟨encodeRegReg_eq_ofNat_fixed_add 0x8 x y 0x5, fun s => ⟨_, exec_of_check_none rfl, ?_⟩⟩,
    ⟨encodeRegReg_eq_ofNat_fixed_add 0x8 x y 0x7, fun s => ⟨_, exec_of_check_none rfl, ?_⟩⟩⟩
  · rw [ofInt_toNat_sub, ← flagByte_eq_ite (noBorrow_iff _ _)]
    exact writesResultThenFlag_setResultAndFlag_advance s x _ _
  · rw [ofInt_toNat_sub, ← flagByte_eq_ite (noBorrow_iff _ _)]
    exact writesResultThenFlag_setResultAndFlag_advance s x _ _

/-- Settles O29: a shift by one is a division or a doubling, and the flag the digit that leaves. -/
theorem shiftsOfVySetTheBitOut : Obligations.ShiftsOfVySetTheBitOut := by
  refine fun x y s => ⟨encodeRegReg_eq_ofNat_fixed_add 0x8 x y 0x6, encodeRegReg_eq_ofNat_fixed_add 0x8 x y 0xE,
    ⟨_, exec_of_check_none rfl, ?_⟩, ⟨_, exec_of_check_none rfl, ?_⟩⟩
  · rw [← shiftRight_one_eq_ofNat, ← shiftedOutRight_eq]
    exact writesResultThenFlag_setResultAndFlag_advance s x _ _
  · rw [← shiftLeft_one_eq_ofNat, ← shiftedOutLeft_eq]
    exact writesResultThenFlag_setResultAndFlag_advance s x _ _

/-- Settles O30: one register write of the masked draw, and one count of it. -/
theorem randomByteIsMasked : Obligations.RandomByteIsMasked := by
  refine fun x nn s => ⟨encodeRegImm_eq_ofNat 0xC x nn.toNat, _, exec_of_check_none rfl, fun k => ?_, fun r hr => ?_,
    pcIs_of_pc_eq_add 2 rfl, rfl, ?_⟩
  · simp [Instr.effect]
  · simp [Instr.effect, hr]
  · simp [Instr.effect, UnchangedExcept]

/-! ### Jumps, calls and returns -/

theorem addrOperand_add_wideByte_toNat (nnn : Addr) (b : Byte) : (addrOperand nnn + wideByte b).toNat = nnn.toNat + b.toNat := by
  have := nnn.isLt
  have := b.isLt
  rw [BitVec.toNat_add, addrOperand_toNat, wideByte_toNat]
  omega

/-- Settles O32: both are one move of PC, and NNN + V0 stays below 65536. -/
theorem sysAndComputedJumpTargets : Obligations.SysAndComputedJumpTargets :=
  fun nnn s => ⟨encode_sys nnn, rfl,
    ⟨_, exec_of_check_none rfl, addrOperand_toNat nnn, unchangedExcept_setPc s _⟩,
    ⟨_, exec_of_check_none rfl, addrOperand_add_wideByte_toNat nnn _, unchangedExcept_setPc s _⟩⟩

theorem unchangedExcept_setStack_setPc (s : State) (l : List Word) (w : Word) :
    UnchangedExcept [.pc, .stack] s ((s.setStack l).setPc w) := by
  simp [UnchangedExcept]

theorem check_call_of_lt {s : State} (nnn : Addr) (h : s.stack.length < Config.stackDepth) : (Instr.call nnn).check s = none :=
  if_neg h.ne

/-- PC + 2, as a number and as a word. -/
theorem ofNat_toNat_add_two (w : Word) : BitVec.ofNat 16 (w.toNat + 2) = w + 2#16 := by
  rw [BitVec.ofNat_add, BitVec.ofNat_toNat, BitVec.setWidth_eq]

/-- Settles O33: by the check of the depth. -/
theorem callPushesOrOverflows : Obligations.CallPushesOrOverflows := by
  refine fun nnn s => ⟨rfl, fun hlt => ⟨_, exec_of_check_none (check_call_of_lt nnn hlt), ?_, addrOperand_toNat nnn,
    unchangedExcept_setStack_setPc s _ _⟩, fun heq => ⟨_, exec_of_check_some (if_pos heq), faultedFrom_enterFault s _⟩⟩
  rw [ofNat_toNat_add_two]
  rfl

/-- Settles O34: by the stack. -/
theorem returnPopsOrUnderflows : Obligations.ReturnPopsOrUnderflows := by
  refine ⟨rfl, fun s => ⟨fun a rest hs => ?_, fun hs => ⟨_, exec_of_check_some (if_pos hs), faultedFrom_enterFault s _⟩⟩⟩
  have hc : Instr.ret.check s = none := if_neg (by simp [hs])
  refine ⟨_, exec_of_check_none hc, ?_, ?_, unchangedExcept_setStack_setPc s _ _⟩
  · simp [Instr.effect, hs]
  · simp [Instr.effect, hs]

/-! ### The index register -/

/-- Settles O39: both are one write of I, of a sum of words. -/
theorem addIndexAndFontGlyph : Obligations.AddIndexAndFontGlyph := by
  refine fun x s => ⟨encodeRegImm_eq_ofNat_fixed_add 0xF x 0x1E, encodeRegImm_eq_ofNat_fixed_add 0xF x 0x29,
    ⟨_, exec_of_check_none rfl, ?_, pcIs_setI_advance s _, unchangedExcept_setI_advance s _⟩,
    ⟨_, exec_of_check_none rfl, ?_, pcIs_setI_advance s _, unchangedExcept_setI_advance s _⟩⟩
  · simp [Instr.effect]
  · simp [Instr.effect]

/-! ### Keys -/

/-- Settles O48: `V[X]` up to 15 names a key, and the instruction is the skip on its flag. -/
theorem keySkipsFollowTheFlag : Obligations.KeySkipsFollowTheFlag := by
  refine fun x s => ⟨encodeRegImm_eq_ofNat_fixed_add 0xE x 0x9E, encodeRegImm_eq_ofNat_fixed_add 0xE x 0xA1, fun k hk => ?_,
    fun hbig => ⟨⟨_, exec_of_check_some (if_pos hbig), faultedFrom_enterFault s _⟩,
      ⟨_, exec_of_check_some (if_pos hbig), faultedFrom_enterFault s _⟩⟩⟩
  have hkey := (keyOperand_some _ k).mpr hk
  have hsmall : ¬15 < (s.getV x).toNat := by
    have := k.isLt
    omega
  refine ⟨⟨_, exec_of_check_none (if_neg hsmall), skipsIf_skipIf s ?_⟩, ⟨_, exec_of_check_none (if_neg hsmall), skipsIf_skipIf s ?_⟩⟩
  · simp [hkey]
  · simp [hkey]

/-- Settles O50: two writes and the move of PC. -/
theorem keyWaitBegins : Obligations.KeyWaitBegins := by
  refine fun x s => ⟨encodeRegImm_eq_ofNat_fixed_add 0xF x 0x0A, _, exec_of_check_none rfl, rfl, rfl, pcIs_of_pc_eq_add 2 rfl, ?_⟩
  simp [Instr.effect, UnchangedExcept]

end Sys2Proof

/-! PROOFS. Memory transfers (42_index_memory section 2): the range check, the stored bytes read back, FX33, FX55 and FX65, and stored
code; and a call with its return (40_control_flow section 5). -/

namespace Sys2Proof

open Sys2Proof.Machine

/-! ### The parts that a frame keeps -/

theorem UnchangedExcept.getV_eq {parts : List Part} {s t : State} (h : UnchangedExcept parts s t) (hp : Part.v ∉ parts) (r : Reg) :
    t.getV r = s.getV r := by
  obtain ⟨hv, -⟩ := h
  exact hv.resolve_left hp r

theorem UnchangedExcept.i_eq {parts : List Part} {s t : State} (h : UnchangedExcept parts s t) (hp : Part.i ∉ parts) : t.i = s.i := by
  obtain ⟨-, hi, -⟩ := h
  exact hi.resolve_left hp

theorem UnchangedExcept.read_eq {parts : List Part} {s t : State} (h : UnchangedExcept parts s t) (hp : Part.mem ∉ parts) (a : Nat) :
    t.mem.read a = s.mem.read a := by
  obtain ⟨-, -, -, -, -, -, -, -, -, -, -, hmem, -⟩ := h
  exact hmem.resolve_left hp a

/-! ### The range check of the data bytes (20_memory R53, R54) -/

section
variable {i : Instr} {s : State} (hi : i.check s = (firstBadAddress s.i.toNat i.dataBytes).map .addressError)
include hi

theorem exec_of_data_inside (h : i.dataBytes = 0 ∨ s.i.toNat + i.dataBytes ≤ 0x1000) : exec i s = .next (i.effect s) := by
  apply exec_of_check_none
  rw [hi, (firstBadAddress_none _ _).mpr h, Option.map_none]

theorem exec_of_data_outside (h0 : i.dataBytes ≠ 0) (h : 0x1000 < s.i.toNat + i.dataBytes) :
    exec i s = .next (s.enterFault (.addressError (if 0x1000 ≤ s.i.toNat then s.i.toNat else 0x1000))) := by
  apply exec_of_check_some
  rw [hi, (firstBadAddress_some _ _ _).mpr ⟨h0, h, rfl⟩, Option.map_some, max_memSize_eq_ite]

end

/-! ### Stored bytes -/

theorem effect_read_stored (i : Instr) (s : State) {k : Nat} (hk : k < (i.stores s).length) :
    (i.effect s).mem.read (s.i.toNat + k) = (i.stores s)[k] := by
  rw [effect_mem, Memory.read_writeBlock, if_pos (by omega), Nat.add_sub_cancel_left, List.getD_eq_getElem _ _ hk]

theorem stores_ldMemVx_length (x : Reg) (s : State) : ((Instr.ldMemVx x).stores s).length = x.val + 1 := by
  rw [Instr.stores, List.length_map, regsUpTo_length]

theorem stores_ldMemVx_getElem (s : State) {x k : Reg} (hk : k.val < ((Instr.ldMemVx x).stores s).length) :
    ((Instr.ldMemVx x).stores s)[k.val] = s.getV k := by
  simp only [Instr.stores, List.getElem_map]
  rw [regsUpTo_getElem x k.val _ k.isLt]

theorem unchangedExcept_setMem_advance (s : State) (m : Memory) : UnchangedExcept [.mem, .pc] s (s.setMem m).advance := by
  simp [UnchangedExcept]

theorem pcIs_setMem_advance (s : State) (m : Memory) : PcIs (s.setMem m).advance (s.pc.toNat + 2) :=
  pcIs_of_pc_eq_add 2 (by rw [State.advance_pc, State.setMem_pc])

/-! ### The obligations -/

/-- Settles O40: the three digits are the stored bytes. -/
theorem bcdStoresThreeDigits : Obligations.BcdStoresThreeDigits := by
  refine fun x => ⟨encodeRegImm_eq_ofNat_fixed_add 0xF x 0x33, fun s => ⟨fun hin => ?_, fun hout => ?_⟩⟩
  · have hdigit : ∀ (k : Nat) (hk : k < 3), (((Instr.ldB x).effect s).mem.read (s.i.toNat + k)).toNat =
        ((bcdDigits (s.getV x))[k]).toNat := fun k hk => congrArg BitVec.toNat (effect_read_stored (.ldB x) s hk)
    have hv := (s.getV x).isLt
    refine ⟨_, exec_of_data_inside rfl (.inr (by simp only [Instr.dataBytes]; omega)), ?_, ?_, ?_, fun a ha => ?_,
      pcIs_setMem_advance s _, unchangedExcept_setMem_advance s _⟩
    · refine (hdigit 0 (by decide)).trans ?_
      simp [bcdDigits]
      omega
    · refine (hdigit 1 (by decide)).trans ?_
      simp [bcdDigits]
      omega
    · refine (hdigit 2 (by decide)).trans ?_
      simp [bcdDigits]
      omega
    · exact effect_read (.ldB x) s (by simp only [Instr.dataBytes]; omega)
  · exact ⟨_, exec_of_data_outside rfl (by simp [Instr.dataBytes]) (by simp only [Instr.dataBytes]; omega), faultedFrom_enterFault s _⟩

/-- Settles O41: V0 to VX are the stored bytes. -/
theorem blockStoreWritesV0ToVx : Obligations.BlockStoreWritesV0ToVx := by
  refine fun x s => ⟨encodeRegImm_eq_ofNat_fixed_add 0xF x 0x55, fun hin => ?_, fun hout => ?_⟩
  · refine ⟨_, exec_of_data_inside rfl (.inr (by simp only [Instr.dataBytes]; omega)), fun k hk => ?_, fun a ha => ?_,
      pcIs_setMem_advance s _, unchangedExcept_setMem_advance s _⟩
    · have hlen : k.val < ((Instr.ldMemVx x).stores s).length := by
        rw [stores_ldMemVx_length]
        exact Nat.lt_succ_of_le hk
      rw [effect_read_stored (.ldMemVx x) s hlen, stores_ldMemVx_getElem]
    · exact effect_read (.ldMemVx x) s (by simp only [Instr.dataBytes]; omega)
  · exact ⟨_, exec_of_data_outside rfl (by simp [Instr.dataBytes]) (by simp only [Instr.dataBytes]; omega), faultedFrom_enterFault s _⟩

theorem pcIs_effect_ldVxMem (x : Reg) (s : State) : PcIs ((Instr.ldVxMem x).effect s) (s.pc.toNat + 2) := by
  obtain ⟨v, hv⟩ := State.loadRegs_eq (regsUpTo x) s
  exact pcIs_of_pc_eq_add 2 (by simp [Instr.effect, hv])

/-- Settles O42: the loaded registers are those up to VX. -/
theorem blockLoadReadsV0ToVx : Obligations.BlockLoadReadsV0ToVx := by
  refine fun x s => ⟨encodeRegImm_eq_ofNat_fixed_add 0xF x 0x65, fun hin => ?_, fun hout => ?_⟩
  · refine ⟨_, exec_of_data_inside rfl (.inr (by simp only [Instr.dataBytes]; omega)), fun k hk => ?_, fun k hk => ?_,
      pcIs_effect_ldVxMem x s, effect_unchangedExcept (.ldVxMem x) s⟩
    · rw [Instr.effect, State.getV_advance, State.getV_loadRegs, if_pos ((mem_regsUpTo x k).mpr hk)]
      rfl
    · exact effect_getV s (by simpa [Instr.writesV] using hk)
  · exact ⟨_, exec_of_data_outside rfl (by simp [Instr.dataBytes]) (by simp only [Instr.dataBytes]; omega), faultedFrom_enterFault s _⟩

/-- Settles O43: by O41 and O42, the second at the state after the store, where I is the same. -/
theorem storeThenLoadRoundTrip : Obligations.StoreThenLoadRoundTrip := by
  intro x s hin
  obtain ⟨-, hstore, -⟩ := blockStoreWritesV0ToVx x s
  obtain ⟨t, ht, hstored, -, -, hts⟩ := hstore hin
  have hti : t.i = s.i := hts.i_eq (by decide)
  obtain ⟨-, hload, -⟩ := blockLoadReadsV0ToVx x t
  obtain ⟨u, hu, hloaded, hkept, -, hut⟩ := hload (hti ▸ hin)
  refine ⟨t, u, ht, hu, fun k => ?_, fun k hk => ?_, (hut.i_eq (by decide)).trans hti⟩
  · by_cases hk : k ≤ x
    · rw [hloaded k hk, hti, hstored k hk]
    · rw [hkept k (not_le.mp hk), hts.getV_eq (by decide)]
  · rw [hut.read_eq (by decide), hstored k hk]

/-- Settles O44: by O41 the next PC is the address of the stored V[k]. -/
theorem storedCodeIsFetchedNext : Obligations.StoredCodeIsFetchedNext := by
  intro x k l s hin hl hlx hpc
  obtain ⟨-, hstore, -⟩ := blockStoreWritesV0ToVx x s
  obtain ⟨t, ht, hstored, -, hpct, -⟩ := hstore hin
  have hlx' : l.val ≤ x.val := hlx
  have hkx : k ≤ x := Fin.le_def.mpr (by omega)
  have hpc' : t.pc.toNat = s.i.toNat + k.val := by
    rw [PcIs] at hpct
    omega
  have hread : t.mem.read (s.i.toNat + k.val + 1) = s.getV l := by
    rw [Nat.add_assoc, ← hl]
    exact hstored l hlx
  refine ⟨t, ht, ?_⟩
  rw [fetch_of_inside (by omega), hpc', hstored k hkx, hread]

/-- Settles O37: the call pushes and the return pops, the routine's first word read by the second fetch. -/
theorem callThenReturnComesBack : Obligations.CallThenReturnComesBack := by
  intro s nnn hrun hpc hnnn hd hret hroom
  have hcall : step s = .next ((Instr.call nnn).effect s) :=
    (step_of_decode_ok hrun (fetch_of_inside hpc) hd).trans (exec_of_check_none (check_call_of_lt nnn hroom))
  have hpc' : ((Instr.call nnn).effect s).pc.toNat = nnn.toNat := addrOperand_toNat nnn
  have hfetch : fetch ((Instr.call nnn).effect s) = .ok 0x00EE#16 := by
    rw [fetch_of_inside (hpc'.symm ▸ hnnn), hpc']
    exact congrArg Except.ok hret
  have hreturn : step ((Instr.call nnn).effect s) = .next (Instr.ret.effect ((Instr.call nnn).effect s)) :=
    (step_of_decode_ok (s := (Instr.call nnn).effect s) (i := .ret) hrun hfetch (by decide)).trans (exec_of_check_none rfl)
  refine ⟨_, _, hcall, hpc', rfl, hreturn, pcIs_of_pc_eq_add 2 rfl, ?_⟩
  simp [Instr.effect, UnchangedExcept]

end Sys2Proof

/-! PROOFS. DXYN (43_display section 2): the pixels that a run of sprite rows covers, what the blit does to them, and drawing twice. -/

namespace Sys2Proof

open Sys2Proof.Machine

/-! ### Covered pixels -/

/-- Sprite bytes on rows `y`, `y + 1`, … from column `x0` have a bit 1 on a pixel (43_display R184, R185). -/
def RowsCover (x0 y : Nat) (bs : List Byte) (r : Fin 32) (c : Fin 64) : Prop :=
  ∃ (i : Nat) (h : i < bs.length), r = wrapRow (y + i) ∧ c ∈ spriteCols x0 bs[i]

theorem not_rowsCover_nil (x0 y : Nat) (r : Fin 32) (c : Fin 64) : ¬RowsCover x0 y [] r c := by
  rintro ⟨i, h, -⟩
  exact absurd h (Nat.not_lt_zero i)

theorem rowsCover_cons (x0 y : Nat) (b : Byte) (bs : List Byte) (r : Fin 32) (c : Fin 64) :
    RowsCover x0 y (b :: bs) r c ↔ (r = wrapRow y ∧ c ∈ spriteCols x0 b) ∨ RowsCover x0 (y + 1) bs r c := by
  constructor
  · rintro ⟨i, h, hr, hc⟩
    cases i with
    | zero => exact .inl ⟨hr, hc⟩
    | succ i => exact .inr ⟨i, Nat.lt_of_succ_lt_succ h, by rw [hr, Nat.add_assoc, Nat.add_comm 1], hc⟩
  · rintro (⟨hr, hc⟩ | ⟨i, h, hr, hc⟩)
    · exact ⟨0, Nat.zero_lt_succ _, hr, hc⟩
    · exact ⟨i + 1, Nat.succ_lt_succ h, by rw [hr, Nat.add_assoc, Nat.add_comm 1], hc⟩

/-- Fewer than 32 further rows do not come round to the first one (43_display R187). -/
theorem ne_wrapRow_of_rowsCover {x0 y : Nat} {bs : List Byte} {r : Fin 32} {c : Fin 64} (hlen : bs.length < 32)
    (h : RowsCover x0 (y + 1) bs r c) : r ≠ wrapRow y := by
  obtain ⟨i, hi, rfl, -⟩ := h
  intro heq
  have := congrArg Fin.val heq
  simp only [wrapRow_val] at this
  omega

/-- The sprite of DXYN as rows of bytes. -/
theorem spriteCovers_iff_rowsCover (s : State) (x y : Reg) (n : BitVec 4) (r : Fin 32) (c : Fin 64) :
    SpriteCovers s x y n r c ↔
      RowsCover (s.getV x).toNat (s.getV y).toNat (s.mem.readBlock s.indexBase n.toNat) r c := by
  simp only [SpriteCovers, RowsCover, Memory.length_readBlock, Memory.getElem_readBlock, mem_spriteCols, Fin.ext_iff, wrapRow_val]
  constructor
  · rintro ⟨i, j, hi, hj, hr, hc, hbit⟩
    exact ⟨i, hi, hr, j, hj, hbit, hc⟩
  · rintro ⟨i, hi, hr, j, hj, hbit, hc⟩
    exact ⟨i, j, hi, hj, hr, hc, hbit⟩

/-! ### The blit -/

theorem blitRow_pixel (x0 : Nat) (r q : Fin 32) (c : Fin 64) (b : Byte) (d : Blit) :
    (blitRow x0 r b d).fb.pixel q c = if q = r ∧ c ∈ spriteCols x0 b then !d.fb.pixel q c else d.fb.pixel q c := by
  rw [blitRow_eq]
  exact (blitPixels_spec r _ (spriteCols_nodup x0 b) d).1 q c

theorem blitRow_collision (x0 : Nat) (r : Fin 32) (b : Byte) (d : Blit) :
    (blitRow x0 r b d).collision = true ↔ d.collision = true ∨ ∃ c ∈ spriteCols x0 b, d.fb.pixel r c = true := by
  rw [blitRow_eq, (blitPixels_spec r _ (spriteCols_nodup x0 b) d).2, Bool.or_eq_true, List.any_eq_true]

theorem blitRow_pixel_of_ne {x0 y : Nat} {r : Fin 32} (b : Byte) (d : Blit) (c : Fin 64) (h : r ≠ wrapRow y) :
    (blitRow x0 (wrapRow y) b d).fb.pixel r c = d.fb.pixel r c := by
  rw [blitRow_pixel, if_neg fun hr => h hr.1]

theorem blitRows_pixel_of_not_covered {x0 y : Nat} {bs : List Byte} (d : Blit) {r : Fin 32} {c : Fin 64}
    (h : ¬RowsCover x0 y bs r c) : (blitRows x0 y bs d).fb.pixel r c = d.fb.pixel r c := by
  induction bs generalizing y d with
  | nil => rfl
  | cons b bs ih =>
    rw [rowsCover_cons, not_or] at h
    obtain ⟨hrow, hrest⟩ := h
    rw [blitRows, ih _ hrest, blitRow_pixel, if_neg hrow]

theorem blitRows_pixel_of_covered {x0 y : Nat} {bs : List Byte} (d : Blit) (hlen : bs.length ≤ 32) {r : Fin 32} {c : Fin 64}
    (h : RowsCover x0 y bs r c) : (blitRows x0 y bs d).fb.pixel r c = !d.fb.pixel r c := by
  induction bs generalizing y d with
  | nil => exact absurd h (not_rowsCover_nil x0 y r c)
  | cons b bs ih =>
    rw [List.length_cons] at hlen
    rw [blitRows]
    obtain hrow | hrest := (rowsCover_cons x0 y b bs r c).mp h
    · have hnot : ¬RowsCover x0 (y + 1) bs r c := fun hrest => ne_wrapRow_of_rowsCover hlen hrest hrow.1
      rw [blitRows_pixel_of_not_covered _ hnot, blitRow_pixel, if_pos hrow]
    · rw [ih _ (by omega) hrest, blitRow_pixel_of_ne b d c (ne_wrapRow_of_rowsCover hlen hrest)]

/-- The flag collects the covered pixels that were 1 (43_display R185). -/
theorem blitRows_collision {x0 y : Nat} {bs : List Byte} (d : Blit) (hlen : bs.length ≤ 32) :
    (blitRows x0 y bs d).collision = true ↔
      d.collision = true ∨ ∃ r c, RowsCover x0 y bs r c ∧ d.fb.pixel r c = true := by
  induction bs generalizing y d with
  | nil => simp [blitRows, not_rowsCover_nil]
  | cons b bs ih =>
    rw [List.length_cons] at hlen
    have hrest : ∀ r c, RowsCover x0 (y + 1) bs r c →
        (blitRow x0 (wrapRow y) b d).fb.pixel r c = d.fb.pixel r c := fun r c h =>
      blitRow_pixel_of_ne b d c (ne_wrapRow_of_rowsCover hlen h)
    rw [blitRows, ih _ (by omega), blitRow_collision, or_assoc]
    refine or_congr_right ⟨?_, ?_⟩
    · rintro (⟨c, hc, hset⟩ | ⟨r, c, hcov, hset⟩)
      · exact ⟨_, c, (rowsCover_cons ..).mpr (.inl ⟨rfl, hc⟩), hset⟩
      · exact ⟨r, c, (rowsCover_cons ..).mpr (.inr hcov), hrest r c hcov ▸ hset⟩
    · rintro ⟨r, c, hcov, hset⟩
      obtain ⟨rfl, hc⟩ | hcov := (rowsCover_cons ..).mp hcov
      · exact .inl ⟨c, hc, hset⟩
      · exact .inr ⟨r, c, hcov, (hrest r c hcov).trans hset⟩

/-! ### The blit of an instruction -/

section
variable (s : State) (x y : Reg) (n : BitVec 4)

theorem sprite_length_le : (s.mem.readBlock s.indexBase n.toNat).length ≤ 32 := by
  have := n.isLt
  rw [Memory.length_readBlock]
  omega

theorem blit_pixel_of_covered {r : Fin 32} {c : Fin 64} (h : SpriteCovers s x y n r c) :
    (s.blit x y n).fb.pixel r c = !s.fb.pixel r c :=
  blitRows_pixel_of_covered _ (sprite_length_le s n) ((spriteCovers_iff_rowsCover s x y n r c).mp h)

theorem blit_pixel_of_not_covered {r : Fin 32} {c : Fin 64} (h : ¬SpriteCovers s x y n r c) :
    (s.blit x y n).fb.pixel r c = s.fb.pixel r c :=
  blitRows_pixel_of_not_covered _ fun hcov => h ((spriteCovers_iff_rowsCover s x y n r c).mpr hcov)

theorem blit_collision : (s.blit x y n).collision = true ↔ ∃ r c, SpriteCovers s x y n r c ∧ s.fb.pixel r c = true := by
  rw [State.blit, blitRows_collision _ (sprite_length_le s n)]
  simp [spriteCovers_iff_rowsCover]

end

/-! ### The obligations -/

theorem effect_drw_getV_vf (s : State) (x y : Reg) (n : BitVec 4) :
    ((Instr.drw x y n).effect s).getV 15 = flagByte (s.blit x y n).collision := by
  rw [Instr.effect, State.getV_advance, State.getV_setV_same]

/-- Settles O46: the effect is the blit, whose pixels and flag are lemmas, and the flag. -/
theorem drawFlipsTheCoveredPixels : Obligations.DrawFlipsTheCoveredPixels := by
  refine fun x y n s => ⟨encodeRegReg_eq_ofNat 0xD x y n.toNat, fun hin => ?_, fun hn hout => ?_⟩
  · refine ⟨_, exec_of_data_inside rfl (hin.imp_left (congrArg BitVec.toNat)), fun r c h => blit_pixel_of_covered s x y n h,
      fun r c h => blit_pixel_of_not_covered s x y n h, fun hset => ?_, fun hclear => ?_, fun r hr => effect_getV s ?_,
      pcIs_of_pc_eq_add 2 rfl, (effect_unchangedExcept (.drw x y n) s).mono (by simp [Instr.writesParts])⟩
    · rw [effect_drw_getV_vf, (blit_collision s x y n).mpr hset]
      rfl
    · have hnone : (s.blit x y n).collision = false := by
        rw [← Bool.not_eq_true, blit_collision]
        rintro ⟨r, c, hcov, hset⟩
        simp [hclear r c hcov] at hset
      rw [effect_drw_getV_vf, hnone]
      rfl
    · simpa [Instr.writesV] using hr
  · have hn' : n.toNat ≠ 0 := fun h => hn (BitVec.eq_of_toNat_eq h)
    exact ⟨_, exec_of_data_outside rfl hn' hout, faultedFrom_enterFault s _⟩

/-- What a sprite covers depends on its origin, on I and on memory alone. -/
theorem spriteCovers_congr {s t : State} {x y : Reg} (hx : t.getV x = s.getV x) (hy : t.getV y = s.getV y) (hi : t.i = s.i)
    (hmem : ∀ a, t.mem.read a = s.mem.read a) (n : BitVec 4) (r : Fin 32) (c : Fin 64) :
    SpriteCovers t x y n r c ↔ SpriteCovers s x y n r c := by
  simp only [SpriteCovers, hx, hy, hi, hmem]

/-- Settles O47: by O46 twice; the second draw covers the same pixels, each of them flipped by the first. -/
theorem drawingTwiceRestoresTheFramebuffer : Obligations.DrawingTwiceRestoresTheFramebuffer := by
  intro x y n s t hin hexec hx hy
  obtain ⟨-, hfirst, -⟩ := drawFlipsTheCoveredPixels x y n s
  obtain ⟨t', ht', hflip, hkeep, -, -, -, -, hframe⟩ := hfirst hin
  obtain rfl : t' = t := Host.Outcome.next.inj (ht'.symm.trans hexec)
  have hi : t'.i = s.i := hframe.i_eq (by decide)
  have hcov := spriteCovers_congr hx hy hi (hframe.read_eq (by decide)) n
  obtain ⟨-, hsecond, -⟩ := drawFlipsTheCoveredPixels x y n t'
  obtain ⟨u, hu, hflip', hkeep', hset, hclear, -, -, -⟩ := hsecond (hi ▸ hin)
  refine ⟨u, hu, Framebuffer.eq_of_pixels _ _ fun r c => ?_, ?_⟩
  · by_cases h : SpriteCovers s x y n r c
    · rw [hflip' r c ((hcov r c).mpr h), hflip r c h, Bool.not_not]
    · rw [hkeep' r c (mt (hcov r c).mp h), hkeep r c h]
  · by_cases h : ∃ r c, SpriteCovers s x y n r c ∧ s.fb.pixel r c = false
    · obtain ⟨r, c, hc, hpix⟩ := h
      have hone : u.getV 15 = 1 := hset ⟨r, c, (hcov r c).mpr hc, by rw [hflip r c hc, hpix]; rfl⟩
      exact ⟨iff_of_true hone ⟨r, c, hc, hpix⟩, .inr hone⟩
    · have hzero : u.getV 15 = 0 := hclear fun r c hc => by
        have hc' := (hcov r c).mp hc
        have hpix : s.fb.pixel r c = true := by
          by_contra hne
          exact h ⟨r, c, hc', Bool.eq_false_of_not_eq_true hne⟩
        rw [hflip r c hc', hpix]
        rfl
      exact ⟨iff_of_false (by rw [hzero]; decide) h, .inl hzero⟩

end Sys2Proof

/-! PROOFS. The host's ports (60_exceptions sections 5 to 7, 70_reset section 2): a tick, a key report, a stop and a load, and lists of
them. -/

namespace Sys2Proof

open Sys2Proof.Machine

/-! ### Port lists -/

theorem UnchangedExcept.refl (parts : List Part) (s : State) : UnchangedExcept parts s s := by
  simp [UnchangedExcept]

theorem UnchangedExcept.trans {parts : List Part} {s t u : State} (h : UnchangedExcept parts s t) (h' : UnchangedExcept parts t u) :
    UnchangedExcept parts s u := by
  have eq_trans {p : Prop} {α : Type} {a b c : α} (hab : p ∨ b = a) (hbc : p ∨ c = b) : p ∨ c = a :=
    hab.elim .inl fun hab => hbc.imp_right (·.trans hab)
  have forall_trans {p : Prop} {ι α : Type} {f g k : ι → α} (hfg : p ∨ ∀ i, g i = f i) (hgk : p ∨ ∀ i, k i = g i) :
      p ∨ ∀ i, k i = f i := hfg.elim .inl fun hfg => hgk.imp_right fun hgk i => (hgk i).trans (hfg i)
  obtain ⟨hv, hi, hpc, hstack, hdt, hst, hfb, hkeys, hrun, hfont, hlatch, hmem, hdraws⟩ := h
  obtain ⟨hv', hi', hpc', hstack', hdt', hst', hfb', hkeys', hrun', hfont', hlatch', hmem', hdraws'⟩ := h'
  exact ⟨forall_trans hv hv', eq_trans hi hi', eq_trans hpc hpc', eq_trans hstack hstack', eq_trans hdt hdt', eq_trans hst hst',
    eq_trans hfb hfb', forall_trans hkeys hkeys', eq_trans hrun hrun', eq_trans hfont hfont', eq_trans hlatch hlatch',
    forall_trans hmem hmem', eq_trans hdraws hdraws'⟩

theorem UnchangedExcept.keyFlag_eq {parts : List Part} {s t : State} (h : UnchangedExcept parts s t) (hp : Part.keys ∉ parts)
    (k : Key) : t.keyFlag k = s.keyFlag k := by
  obtain ⟨-, -, -, -, -, -, -, hkeys, -⟩ := h
  exact hkeys.resolve_left hp k

theorem UnchangedExcept.run_eq {parts : List Part} {s t : State} (h : UnchangedExcept parts s t) (hp : Part.run ∉ parts) :
    t.run = s.run := by
  obtain ⟨-, -, -, -, -, -, -, -, hrun, -⟩ := h
  exact hrun.resolve_left hp

theorem UnchangedExcept.keyLatch_eq {parts : List Part} {s t : State} (h : UnchangedExcept parts s t) (hp : Part.keyLatch ∉ parts) :
    t.keyLatch = s.keyLatch := by
  obtain ⟨-, -, -, -, -, -, -, -, -, -, hlatch, -⟩ := h
  exact hlatch.resolve_left hp

theorem runPorts_cons_of_next {p : Port} {s t : State} (h : transact p s = .next t) (ports : List Port) :
    runPorts (p :: ports) s = runPorts ports t := by
  simp [runPorts, h]

/-! ### Ticks -/

theorem unchangedExcept_tickTimers (s : State) : UnchangedExcept [.dt, .st] s (tickTimers s) := by
  simp [UnchangedExcept, tickTimers]

/-- Settles O52: by induction on the number of ticks. -/
theorem ticksCountBothTimersDown : Obligations.TicksCountBothTimersDown := by
  intro n
  induction n with
  | zero => exact fun s => ⟨rfl, rfl, .refl _ s⟩
  | succ n ih =>
    intro s
    obtain ⟨hdt, hst, hframe⟩ := ih (tickTimers s)
    rw [List.replicate_succ, runPorts_cons_of_next rfl]
    refine ⟨?_, ?_, (unchangedExcept_tickTimers s).trans hframe⟩
    · have htick : (tickTimers s).dt.toNat = s.dt.toNat - 1 := tickDown_toNat s.dt
      omega
    · have htick : (tickTimers s).st.toNat = s.st.toNat - 1 := tickDown_toNat s.st
      omega

/-! ### Keys -/

theorem transact_setKey (k : Key) (pressed : Bool) (s : State) :
    transact (.setKey k.val pressed) s = .next ((s.setKeyFlag k pressed).setKeyLatch (latchAfter s k pressed)) := by
  simp [transact, setKey]

/-- A report is latched when it is the first new press of a wait (60_exceptions R243). -/
theorem latchAfter_eq_some {s : State} {k : Key} {x : Reg} (hrun : s.run = .awaitingKey x) (hflag : s.keyFlag k = false)
    (hl : s.keyLatch = none) : latchAfter s k true = some k := by
  simp [latchAfter, hrun, hflag, hl]

/-- Settles O53: the transaction is the write of one flag and of the latch. -/
theorem setKeyWritesTheFlagAndLatches : Obligations.SetKeyWritesTheFlagAndLatches := by
  refine ⟨fun k pressed s => ⟨_, transact_setKey k pressed s, ?_, fun j hj => ?_, ?_, fun h => latchAfter_eq_self h, ?_⟩,
    fun k pressed s hk => ?_⟩
  · simp [State.keyFlag_setKeyFlag]
  · simp [State.keyFlag_setKeyFlag, hj]
  · rintro ⟨⟨x, hrun⟩, rfl, hflag, hl⟩
    exact latchAfter_eq_some hrun hflag hl
  · simp [UnchangedExcept]
  · exact dif_neg (by omega)

/-- A further press report of a key already held changes nothing (90_conflicts C6). -/
theorem unchangedExcept_setKey_of_held {s : State} {k : Key} (hflag : s.keyFlag k = true) :
    UnchangedExcept [.dt, .st] s ((s.setKeyFlag k true).setKeyLatch (latchAfter s k true)) := by
  have hlatch : latchAfter s k true = s.keyLatch := latchAfter_eq_self (by simp [hflag])
  have hkeys : ∀ j, (s.setKeyFlag k true).keyFlag j = s.keyFlag j := by
    intro j
    rw [State.keyFlag_setKeyFlag]
    split
    next hj => rw [hj, hflag]
    next => rfl
  simp [UnchangedExcept, hlatch, hkeys]

/-- Settles O51: each of the listed ports leaves a wait without a latch as it is, the timers apart. -/
theorem heldKeysDoNotEndTheWait : Obligations.HeldKeysDoNotEndTheWait := by
  intro ports s x hrun hl hports
  have hframe : UnchangedExcept [.dt, .st] s (runPorts ports s) := by
    refine runPorts_induction ports (.refl _ s) fun p hp t u ht hu => ht.trans ?_
    have hrun' : t.run = .awaitingKey x := (ht.run_eq (by decide)).trans hrun
    have hl' : t.keyLatch = none := (ht.keyLatch_eq (by decide)).trans hl
    obtain rfl | rfl | rfl | ⟨k, rfl, hflag⟩ := hports p hp
    · cases hu.symm.trans (step_of_waiting hrun' hl')
      exact .refl _ t
    · cases hu
      exact unchangedExcept_tickTimers t
    · cases hu
      exact .refl _ t
    · cases hu.symm.trans (transact_setKey k true t)
      exact unchangedExcept_setKey_of_held ((ht.keyFlag_eq (by decide) k).trans hflag)
  exact ⟨(hframe.run_eq (by decide)).trans hrun, (hframe.keyLatch_eq (by decide)).trans hl, hframe⟩

/-! ### Terminate -/

/-- Settles O54: by the run state. -/
theorem terminateStopsCleanly : Obligations.TerminateStopsCleanly := by
  intro s
  refine ⟨terminate s, rfl, ?_⟩
  cases hrun : s.run with
  | running | awaitingKey => simp [terminate, hrun, UnchangedExcept]
  | unloaded | faulted | stopped => simp [terminate, hrun]

/-! ### Load -/

/-- Settles O57: by the order of the two checks. -/
theorem failedLoadChangesNothing : Obligations.FailedLoadChangesNothing := by
  intro program programBase fontBase s
  have hfail : ∀ e, loadCheck program.length programBase fontBase = some e →
      transact (.load program programBase fontBase) s = .next s ∧ reply (.load program programBase fontBase) s = .result (.err e) :=
    fun e he => ⟨congrArg Host.Outcome.next (loadWith_of_loadCheck_some s he), congrArg Reply.result (loadResult_of_loadCheck_some he)⟩
  exact ⟨fun h => hfail _ (loadCheck_invalidBase _ _ _ h), fun hp hf h => hfail _ (loadCheck_oversizedProgram _ _ _ hp hf h)⟩

theorem read_loadedMemory_program (font : Font) {program : List Byte} (programBase fontBase : Nat) {k : Nat}
    (hk : k < program.length) : (loadedMemory font program programBase fontBase).read (programBase + k) = program[k] := by
  rw [read_loadedMemory, if_pos (by omega), Nat.add_sub_cancel_left, List.getD_eq_getElem _ _ hk]

theorem read_loadedMemory_font (font : Font) (program : List Byte) {programBase fontBase k : Nat}
    (hbase : fontBase + 80 ≤ programBase) (hk : k < 80) :
    (loadedMemory font program programBase fontBase).read (fontBase + k) = font[k] := by
  have hk' : k < font.toList.length := (length_font font).symm ▸ hk
  rw [read_loadedMemory, if_neg (by omega), if_pos (by simp only [Config.fontSize]; omega), Nat.add_sub_cancel_left,
    List.getD_eq_getElem _ _ hk', Vector.getElem_toList]

theorem read_loadedMemory_other (font : Font) (program : List Byte) {programBase fontBase a : Nat}
    (hp : a < programBase ∨ programBase + program.length ≤ a) (hf : a < fontBase ∨ fontBase + 80 ≤ a) :
    (loadedMemory font program programBase fontBase).read a = 0 := by
  rw [read_loadedMemory, if_neg (by omega), if_neg (by simp only [Config.fontSize]; omega)]
  rfl

theorem toNat_ofNat_of_lt {n : Nat} (h : n < 0x10000) : (BitVec.ofNat 16 n).toNat = n := by
  rw [BitVec.toNat_ofNat, Nat.mod_eq_of_lt h]

theorem getV_reset (r : Reg) : State.reset.getV r = 0 := by
  obtain ⟨hv, -⟩ := resetIsThePowerOnState
  exact hv r

/-- Settles O56: the load succeeds, and its state is written out. -/
theorem loadReinitialisesTheBlock : Obligations.LoadReinitialisesTheBlock := by
  intro font program programBase fontBase s hp hf hlen
  have hc : loadCheck program.length programBase fontBase = none := (loadCheck_none _ _ _).mpr ⟨hp, hf, hlen⟩
  exact ⟨_, loadWith_of_loadCheck_none s hc, loadResult_of_loadCheck_none hc,
    fun k hk => read_loadedMemory_program font programBase fontBase hk,
    fun k hk => read_loadedMemory_font font program (hf.trans hp) hk,
    fun a hap haf => read_loadedMemory_other font program hap haf,
    toNat_ofNat_of_lt (by omega), toNat_ofNat_of_lt (by omega),
    getV_reset, rfl, rfl, rfl, rfl, Framebuffer.pixel_blank, rfl, rfl, fun _ => rfl⟩

/-- Settles O58: by O56 the first fetch reads the program's first two bytes. -/
theorem loadThenStepRunsTheFirstInstruction : Obligations.LoadThenStepRunsTheFirstInstruction := by
  intro b0 b1 rest programBase fontBase s i hp hf hlen hd
  obtain ⟨t, ht, -, hprogram, -, -, hpc, -, -, -, -, -, -, -, -, hrun, -⟩ :=
    loadReinitialisesTheBlock Config.font (b0 :: b1 :: rest) programBase fontBase s hp hf hlen
  have h0 : t.mem.read programBase = b0 := hprogram 0 (by simp)
  have h1 : t.mem.read (programBase + 1) = b1 := hprogram 1 (by simp)
  have hfetch : fetch t = .ok (concat b0 b1) := by
    rw [fetch_of_inside (by omega), hpc, h0, h1]
  exact ⟨t, congrArg Host.Outcome.next ht, hpc, step_of_decode_ok hrun hfetch hd⟩

end Sys2Proof
